-- ==== Sys2Proof/Word.lean ====
section
/-! DEFINITION. The word types of the block: bytes, channel lanes and values, telemetry values, the
throttle word, the request word (spec 00_scope.md R4 and R5, 30_encoding.md R60). -/

namespace Sys2Proof

/-- A byte: an unsigned 8-bit value (R5). -/
abbrev Byte := BitVec 8

/-- One lane of the CH bus, CHAN_IN_W = 16 bits (R4, R62). -/
abbrev Lane := BitVec 16

/-- One channel value, CHW = 11 bits (R2). -/
abbrev Channel := BitVec 11

/-- One event value, VALUE_W = 32 bits, read in two's complement (R4, R82). -/
abbrev Value := BitVec 32

/-- The throttle word, THROTTLE_W = 32 opaque bits (R4, R146). -/
abbrev Throttle := BitVec 32

/-- The request word: N in bits 17..12, B in bits 11..4, OP in bits 3..0 (R60). -/
abbrev ReqWord := BitVec 18

end Sys2Proof
end

