-- ==== Sys2Proof/Config.lean ====
section
/-! DEFINITION. The wire constants (spec 00_scope.md R2), the configuration (R4, R234) and the free
values. A row of R4 with a value is the value here; a row marked OPEN is an opaque constant, so that
nothing can be proved of its value (notes/assumptions 4, 5, 6). -/

namespace Sys2Proof

/-! ### Wire constants (R2) -/

/-- SYNC, the first byte of every frame (R2, R70). -/
def Config.sync : Byte := 0xC8
/-- POLY, the checksum's polynomial without its x^8 term (R2, R101). -/
def Config.poly : Byte := 0xD5
/-- RC_LEN, the length byte of an RC-channels frame (R2, R71). -/
def Config.rcLen : Byte := 24
/-- TYPE_RC_CHANNELS (R2, R74). -/
def Config.typeRcChannels : Byte := 0x16
/-- TYPE_MSP_COMMAND (R2, R74). -/
def Config.typeMspCommand : Byte := 0x7A
/-- TYPE_LINK_STATISTICS (R2, R74). -/
def Config.typeLinkStatistics : Byte := 0x14
/-- TYPE_BATTERY_SENSOR (R2, R74). -/
def Config.typeBatterySensor : Byte := 0x08
/-- TYPE_ATTITUDE (R2, R74). -/
def Config.typeAttitude : Byte := 0x1E
/-- TYPE_FLIGHT_MODE (R2, R74). -/
def Config.typeFlightMode : Byte := 0x21

/-! ### What the telemetry decoders return (R163) -/

/-- LinkStats{rssi1, rssi2, lq, snr, txPower} (R163). -/
structure LinkStats where
  rssi1 : Value
  rssi2 : Value
  lq : Value
  snr : Value
  txPower : Value
  deriving DecidableEq, Repr

/-- Battery{voltageMv, currentMa, capacityMah} (R163). -/
structure Battery where
  voltageMv : Value
  currentMa : Value
  capacityMah : Value
  deriving DecidableEq, Repr

/-- Attitude{pitch, roll, yaw} (R163). -/
structure Attitude where
  pitch : Value
  roll : Value
  yaw : Value
  deriving DecidableEq, Repr

/-! ### The configuration (R4) -/

/-- The configuration a model of the block takes (R4). The decoders are deterministic partial functions
of the payload bytes alone, `none` meaning "undecodable" (R163); their results are VALUE_W-bit by type (U12). -/
structure Params where
  /-- RX_MAX_LEN: the largest accepted length byte (R153). -/
  rxMaxLen : Nat
  /-- RX_BUF_CAP: the scratch capacity in bytes (R27). -/
  rxBufCap : Nat
  /-- RX_MIN_LEN: the smallest accepted length byte (R153). -/
  rxMinLen : Nat
  /-- CMD_MAX_PAYLOAD: the largest command payload in bytes (R121). -/
  cmdMaxPayload : Nat
  /-- CMD_DEST: the destination byte of a command frame (R120). -/
  cmdDest : Byte
  /-- CMD_ORIGIN: the origin byte of a command frame (R120). -/
  cmdOrigin : Byte
  /-- RX_CRC_CHECK: whether a complete frame with a wrong checksum is discarded (R161). -/
  rxCrcCheck : Bool
  /-- DEC_LS (R163, R170). -/
  decLs : List Byte → Option LinkStats
  /-- DEC_BAT (R163, R171). -/
  decBat : List Byte → Option Battery
  /-- DEC_ATT (R163, R172). -/
  decAtt : List Byte → Option Attitude
  /-- DEC_FM (R163, R173). -/
  decFm : List Byte → Option Value

/-- What R234 requires of a configuration, with the bound on RX_BUF_CAP that the 7-bit field rx_idx
of R26 adds (notes/assumptions/7). -/
structure Params.Legal (p : Params) : Prop where
  minLen : 2 ≤ p.rxMinLen
  minMax : p.rxMinLen ≤ p.rxMaxLen
  maxLen : p.rxMaxLen ≤ 255
  bufCap : 2 ≤ p.rxBufCap
  cmdCount : p.cmdMaxPayload ≤ 63
  cmdLen : 6 + p.cmdMaxPayload ≤ 255
  idxField : p.rxBufCap ≤ 127

/-- RX_BUF_CAP of this hardware (R4). -/
abbrev Config.rxBufCap : Nat := 64
/-- CMD_MAX_PAYLOAD of this hardware, and so the number of lanes of the PAY bus (R4, R62). -/
abbrev Config.cmdMaxPayload : Nat := 57

/-- CMD_DEST is OPEN (R4, D14, U4): no value (notes/assumptions/4). -/
opaque Config.cmdDest : Byte
/-- CMD_ORIGIN is OPEN (R4, D14, U4): no value (notes/assumptions/4). -/
opaque Config.cmdOrigin : Byte
/-- RX_CRC_CHECK is OPEN (R4, D10, U3): no value (notes/assumptions/5). DESIGN CHOICE, unsafe: R234 holds
it only "until the next reset", and the model keeps one value across every reset (notes/assumptions/14). -/
opaque Config.rxCrcCheck : Bool
/-- DEC_LS is OPEN (R4, D12, U2): no layout (notes/assumptions/6). -/
opaque Config.decLs : List Byte → Option LinkStats
/-- DEC_BAT is OPEN (R4, D12, U2): no layout (notes/assumptions/6). -/
opaque Config.decBat : List Byte → Option Battery
/-- DEC_ATT is OPEN (R4, D12, U2): no layout (notes/assumptions/6). -/
opaque Config.decAtt : List Byte → Option Attitude
/-- DEC_FM is OPEN (R4, D12, U2): no layout (notes/assumptions/6). -/
opaque Config.decFm : List Byte → Option Value

/-- The configuration of this hardware (R4), the same before and after every reset: DESIGN CHOICE, since
R234 does not say whether a later reset may bring another (notes/assumptions/14). -/
def Config.hw : Params where
  rxMaxLen := 62
  rxBufCap := Config.rxBufCap
  rxMinLen := 2
  cmdMaxPayload := Config.cmdMaxPayload
  cmdDest := Config.cmdDest
  cmdOrigin := Config.cmdOrigin
  rxCrcCheck := Config.rxCrcCheck
  decLs := Config.decLs
  decBat := Config.decBat
  decAtt := Config.decAtt
  decFm := Config.decFm

/-! ### Free values -/

/-- The byte that index `i` of rx_buf reads as while nothing has written it since reset number `k`:
R33 leaves it "any byte at each index" (U1; notes/assumptions/2). -/
opaque Config.scratchDraw (k i : Nat) : Byte

/-- The byte read at index `i` of a frame that has no such byte. No rule reads one on a frame the
framer can complete; the value is free (notes/assumptions/10). -/
opaque Config.absentByte (i : Nat) : Byte

end Sys2Proof
end

