-- ==== Sys2Proof/Machine/Crc.lean ====
section
/-! DEFINITION. The checksum function crc8 and its step (spec 40_checksum.md R100, R101). -/

namespace Sys2Proof

/-- One of the eight iterations of crc_step: the high bit is tested before the shift (R101). -/
def crcShift (a : Byte) : Byte :=
  if a.getLsbD 7 then (a <<< 1) ^^^ Config.poly else a <<< 1

/-- `k` iterations of `crcShift`. -/
def crcShifts : Nat → Byte → Byte
  | 0, a => a
  | k + 1, a => crcShifts k (crcShift a)

/-- `crc_step(a, b)`: XOR b into a, then eight iterations (R101). -/
def crcStep (a b : Byte) : Byte := crcShifts 8 (a ^^^ b)

/-- Fold a list of bytes into an accumulator, first byte first. -/
def crcFold (a : Byte) (l : List Byte) : Byte := l.foldl crcStep a

/-- `crc8(L)`: from accumulator 0, fold in every byte of L (R100). -/
def crc8 (l : List Byte) : Byte := crcFold 0 l

end Sys2Proof
end

