-- ==== Sys2Proof/Syntax.lean ====
section
/-! DEFINITION. The syntax: a request as it stands on the request port, and `Instr`, one constructor
for each row of spec/opcode_table.json (spec 30_encoding.md R60 to R64, R70 to R75). -/

namespace Sys2Proof

/-- A request: the 18-bit request word and the operand buses CH, PK and PAY (R60, R62). -/
structure Request where
  word : ReqWord
  ch : Vector Lane 16
  pk : Vector Byte 22
  pay : Vector Byte Config.cmdMaxPayload
  deriving DecidableEq, Repr

/-- What the type byte of a frame selects (R74): one case per frame row of the opcode table. -/
inductive FrameType where
  | rcChannels
  | mspCommand
  | linkStatistics
  | batterySensor
  | attitude
  | flightMode
  | unknown
  deriving DecidableEq, Repr

/-- The instructions. The first nine are the rows of the request word (R63), each with the operands its
operation uses and no other (R61). The last seven are the rows of the wire-frame type byte (R74): the
block's handling of one complete received frame, whose bytes they carry, index 0 first
(R160; notes/assumptions/8). -/
inductive Instr where
  /-- NOP (R190). -/
  | nop
  /-- CRC_INIT (R102). -/
  | crcInit
  /-- CRC_BYTE (R103); `b` is the byte to fold in. -/
  | crcByte (b : Byte)
  /-- PACK (R113). -/
  | pack (ch : Vector Lane 16)
  /-- UNPACK (R114). -/
  | unpack (pk : Vector Byte 22)
  /-- ENC_RC (R116). -/
  | encRc (ch : Vector Lane 16)
  /-- ENC_CMD (R122); `fn` is the function code, `n` the payload length. -/
  | encCmd (fn : Byte) (n : BitVec 6) (pay : Vector Byte Config.cmdMaxPayload)
  /-- RX_BYTE (R150); `b` is the next received byte. -/
  | rxByte (b : Byte)
  /-- A reserved operation code 0x8 to 0xF (R191); `op` is its low three bits. -/
  | reserved (op : BitVec 3)
  /-- A received frame of type 0x16 (R174). -/
  | frameRcChannels (f : List Byte)
  /-- A received frame of type 0x7A (R174). -/
  | frameMspCommand (f : List Byte)
  /-- A received frame of type 0x14 (R170). -/
  | frameLinkStatistics (f : List Byte)
  /-- A received frame of type 0x08 (R171). -/
  | frameBatterySensor (f : List Byte)
  /-- A received frame of type 0x1E (R172). -/
  | frameAttitude (f : List Byte)
  /-- A received frame of type 0x21 (R173). -/
  | frameFlightMode (f : List Byte)
  /-- A received frame of any other type (R174). -/
  | frameUnknown (f : List Byte)
  deriving DecidableEq, Repr

end Sys2Proof
end

