-- ==== Sys2Proof/Machine/State.lean ====
section
/-! DEFINITION. The state of the block (spec 10_state.md R20 to R29, R33), the response of a request
(30_encoding.md R80 to R82), the inputs (60_exceptions.md R211), and the reasons a step can stop. -/

namespace Sys2Proof.Machine

/-- The framer's state (R24). The 2-bit value 3 is never written (R24, U13). -/
inductive RxState where
  | idle
  | len
  | body
  deriving DecidableEq, Repr

/-- The status of a request (R80, R200). -/
inductive Status where
  | ok
  | errPrecond
  | errIllegal
  deriving DecidableEq, Repr

/-- The diagnostic of an RX_BYTE request (R81, R158). -/
inductive RxStatus where
  | none
  | progress
  | dispatch
  | dropLen
  | dropOvf
  | dropCrc
  deriving DecidableEq, Repr

/-- The kind of an event (R82). -/
inductive EventKind where
  | linkStats
  | battery
  | attitude
  | flightMode
  | unknown
  deriving DecidableEq, Repr

/-- One event, the host notification (R82, R175). -/
structure Event where
  kind : EventKind
  value1 : Value
  value2 : Value
  value3 : Value
  value4 : Value
  value5 : Value
  /-- the frame's type byte -/
  type : Byte
  /-- the frame's length byte -/
  len : Byte
  /-- whether the received checksum byte is right -/
  crcOk : Bool
  /-- the L + 2 received bytes -/
  frame : List Byte
  deriving DecidableEq, Repr

/-- The response of a request (R80 to R82). -/
structure Response where
  status : Status
  out : List Byte
  ch : Option (Vector Channel 16)
  rxStatus : RxStatus
  ev : Option Event
  deriving DecidableEq, Repr

/-- The input ports (R29). -/
structure Ports where
  armedIn : Bool
  overrideIn : Bool
  gateReqIn : Throttle
  deriving DecidableEq, Repr

/-- What the host can do to the block between requests (R211, R230). -/
inductive Input where
  /-- present a request -/
  | request (r : Request)
  /-- drive the input ports -/
  | drive (p : Ports)
  /-- reset -/
  | reset
  deriving DecidableEq, Repr

/-- The scratch buffer: the bytes written since reset, by index, indices strictly rising. An index that
is not listed has not been written since reset (notes/assumptions/2). -/
abbrev Memory := List Host.Cell

/-- The state. The first six fields are the spec's (R20); the others are the model's own
(notes/assumptions 1, 2, 3). -/
structure State where
  /-- the checksum accumulator (R23) -/
  crcAcc : Byte
  /-- the framer's state (R24) -/
  rxState : RxState
  /-- the length byte of the frame being received (R25) -/
  rxLen : Byte
  /-- the number of stored bytes of the partial frame (R26) -/
  rxIdx : BitVec 7
  /-- the scratch buffer (R27) -/
  rxBuf : Memory
  /-- the link flag (R28) -/
  linkOk : Bool
  /-- the model's own: how many resets were taken; selects the free bytes of the unwritten scratch (R33, U1) -/
  rxDraw : Nat
  /-- the model's own: what the host drives on the input ports (R29) -/
  ports : Ports
  /-- the model's own: the inputs still to come, first to come first (R46) -/
  inbox : List Input
  /-- the model's own: the response of the last request since reset (R80); no operation reads it -/
  response : Option Response
  deriving DecidableEq, Repr

/-- Why a step can stop with a fault: never. No request blocks and an error is a status of the response
(R203, R247), so there is no constructor (notes/assumptions/9). -/
inductive Fault where
  deriving DecidableEq, Repr

/-- Why a step can be refused. -/
inductive Refusal where
  /-- The instruction has no meaning yet. Raised by exec's refused arms only, of which there are none. Safe. -/
  | notModelled (mnemonic : String)
  deriving DecidableEq, Repr

/-- The state right after reset (R33): the scratch lists nothing, so every index reads as a free byte;
the link flag and every register are 0 and the framer is IDLE. The host drives 0 on the input ports and
has presented nothing (notes/assumptions 1, 2, 3). -/
def State.reset : State where
  crcAcc := 0x00
  rxState := .idle
  rxLen := 0x00
  rxIdx := 0
  rxBuf := []
  linkOk := false
  rxDraw := 0
  ports := { armedIn := false, overrideIn := false, gateReqIn := 0 }
  inbox := []
  response := none

end Sys2Proof.Machine
end

