-- ==== Sys2Proof/Machine/Ops.lean ====
section
/-! DEFINITION. The named operations: the scratch buffer, the response, raising an error, framing drops
and reset (spec 00_scope.md section 4, 10_state.md R27, 60_exceptions.md R203, 70_reset_and_hazards.md R230). -/

namespace Sys2Proof.Machine

/-! ### The scratch buffer (R27) -/

/-- The byte written at index `a` since reset, if there is one. -/
def Memory.find (m : Memory) (a : Nat) : Option Byte :=
  match m with
  | [] => none
  | (k, v) :: rest => if k = a then some v else Memory.find rest a

/-- Write `v` at index `a`, keeping the indices strictly rising. -/
def Memory.write (m : Memory) (a : Nat) (v : Byte) : Memory :=
  match m with
  | [] => [(a, v)]
  | (k, w) :: rest =>
    if a < k then (a, v) :: (k, w) :: rest
    else if a = k then (a, v) :: rest
    else (k, w) :: Memory.write rest a v

/-- The canonical form: indices strictly rising, every one of 0 to RX_BUF_CAP - 1 (R27). An index that is
not listed has no value of its own, so no entry can equal it (notes/assumptions/2). -/
abbrev Memory.wf (m : Memory) : Prop :=
  m.Pairwise (fun c d => c.1 < d.1) ∧ ∀ c ∈ m, c.1 < Config.rxBufCap

/-- `BufRead(i)`: the byte written at index i since reset, a free byte where there is none (R33, U1). -/
def State.bufRead (s : State) (i : Nat) : Byte :=
  (s.rxBuf.find i).getD (Config.scratchDraw s.rxDraw i)

/-- `BufWrite(i, v)`. -/
def State.bufWrite (s : State) (i : Nat) (v : Byte) : State :=
  { s with rxBuf := s.rxBuf.write i v }

/-! ### The response (R80 to R82) -/

/-- Status OK, `out` empty, `ch` absent, `rx_status` NONE, no event. -/
def Response.plain : Response where
  status := .ok
  out := []
  ch := none
  rxStatus := .none
  ev := none

/-- End the request with the response `r`. -/
def State.respond (s : State) (r : Response) : State := { s with response := some r }

/-- `emit(L)`: end the request with the byte list `l` in `out`. -/
def State.emit (s : State) (l : List Byte) : State := s.respond { Response.plain with out := l }

/-- End an RX_BYTE request with the diagnostic `x` and no event (R158). -/
def State.rxRespond (s : State) (x : RxStatus) : State :=
  s.respond { Response.plain with rxStatus := x }

/-- `notify(ev)`: end the dispatch of a frame with its event and rx_status DISPATCH (R162). -/
def State.notify (s : State) (e : Event) : State :=
  s.respond { Response.plain with rxStatus := .dispatch, ev := some e }

/-- `raise`: end the request with an error status. No state field is written, `out` is empty, `ch` absent,
rx_status NONE, no event, and nothing else is recorded (R203). The block has no trap entry and no return
from one (R204). -/
def State.raise (s : State) (e : Status) : State := s.respond { Response.plain with status := e }

/-! ### Framing and reset -/

/-- The framer returns to IDLE with no partial frame (R154, R156, R157). -/
def State.toIdle (s : State) : State := { s with rxState := .idle, rxIdx := 0 }

/-- Reset, a transition between requests: every state field takes its reset value, the scratch any bytes
(a fresh draw), with no response and no event (R33, R230). Ports and inputs are the host's and stay
(notes/assumptions 3, 12), and so does the configuration, which is no state (notes/assumptions/14). -/
def State.takeReset (s : State) : State :=
  { State.reset with rxDraw := s.rxDraw + 1, ports := s.ports, inbox := s.inbox }

end Sys2Proof.Machine
end

