-- ==== Sys2Proof/Machine/Checksum.lean ====
section
/-! DEFINITION. The two operations of the checksum unit on crc_acc (spec 40_checksum.md R102, R103). -/

namespace Sys2Proof.Machine

/-- Write crc_acc and end with the plain response. -/
def State.writeCrc (s : State) (a : Byte) : State := { s with crcAcc := a }.respond Response.plain

/-- CRC_INIT (R102). -/
def execCrcInit (s : State) : Host.Outcome State Fault Refusal := .next (s.writeCrc 0x00)

/-- CRC_BYTE (R103). -/
def execCrcByte (b : Byte) (s : State) : Host.Outcome State Fault Refusal :=
  .next (s.writeCrc (crcStep s.crcAcc b))

end Sys2Proof.Machine
end

