-- ==== Sys2Proof/Machine/Operands.lean ====
section
/-! DEFINITION. The operand forms: the fields of the request word (spec 30_encoding.md R60, R61), the
payload bytes ENC_CMD reads (R62), list slices (00_scope.md section 4) and the fields of a received
frame (43_framer.md R160). -/

namespace Sys2Proof

/-! ### The request word (R60) -/

/-- OP = word[3:0]. -/
def Request.op (r : Request) : BitVec 4 := r.word.extractLsb' 0 4
/-- B = word[11:4]. -/
def Request.b (r : Request) : Byte := r.word.extractLsb' 4 8
/-- N = word[17:12]. -/
def Request.n (r : Request) : BitVec 6 := r.word.extractLsb' 12 6

/-- The request word `OP | (B << 4) | (N << 12)` (R60). -/
def requestWord (op : BitVec 4) (b : Byte) (n : BitVec 6) : ReqWord :=
  op.setWidth 18 ||| (b.setWidth 18 <<< 4) ||| (n.setWidth 18 <<< 12)

/-- A request whose buses are all zero (R85). -/
def Request.ofWord (w : ReqWord) : Request where
  word := w
  ch := Vector.replicate 16 0
  pk := Vector.replicate 22 0
  pay := Vector.replicate Config.cmdMaxPayload 0

/-- PAY[0] to PAY[N - 1], the payload bytes ENC_CMD reads, and no others (R62). -/
def payloadOperand (n : BitVec 6) (pay : Vector Byte Config.cmdMaxPayload) : List Byte :=
  pay.toList.take n.toNat

/-! ### Lists of bytes (00_scope.md section 4) -/

/-- `L[i]`. -/
def byteAt (l : List Byte) (i : Nat) : Byte := l.getD i (Config.absentByte i)

/-- `L[i..j]`: the elements i to j inclusive; empty when j < i. -/
def slice (l : List Byte) (i j : Nat) : List Byte := (l.drop i).take (j + 1 - i)

/-! ### The fields of a received frame (R70, R160) -/

/-- The length byte, `F[1]`. -/
def frameLen (f : List Byte) : Byte := byteAt f 1
/-- The type byte, `F[2]`. -/
def frameType (f : List Byte) : Byte := byteAt f 2
/-- The payload, `F[3 .. L]`. -/
def framePayload (f : List Byte) : List Byte := slice f 3 (frameLen f).toNat
/-- The bytes the checksum covers, `F[2 .. L]`. -/
def frameCovered (f : List Byte) : List Byte := slice f 2 (frameLen f).toNat
/-- The received checksum byte, `F[L + 1]`. -/
def frameCrc (f : List Byte) : Byte := byteAt f ((frameLen f).toNat + 1)

/-- The row of the frame-type enumeration that a type byte selects (R74, R162). -/
def FrameType.ofByte (ty : Byte) : FrameType :=
  if ty = Config.typeRcChannels then .rcChannels
  else if ty = Config.typeMspCommand then .mspCommand
  else if ty = Config.typeLinkStatistics then .linkStatistics
  else if ty = Config.typeBatterySensor then .batterySensor
  else if ty = Config.typeAttitude then .attitude
  else if ty = Config.typeFlightMode then .flightMode
  else .unknown

end Sys2Proof
end

