-- ==== Sys2Proof/Machine/Packer.lean ====
section
/-! DEFINITION. The channel packer and unpacker as pure functions (spec 41_frame_codec.md R110, R111). -/

namespace Sys2Proof

/-- A field of the 176-bit stream: the value `v` with its bit 0 at stream bit `k` (R42). -/
def streamField {w : Nat} (v : BitVec w) (k : Nat) : BitVec 176 := v.setWidth 176 <<< k

/-- The 176-bit stream of sixteen values of any width: each value's low 11 bits, value i at stream
bit 11*i (R110). -/
def packStream {w : Nat} (ch : Vector (BitVec w) 16) : BitVec 176 :=
  ch.toList.zipIdx.foldl
    (fun acc c => acc ||| streamField (c.1.setWidth 11) (11 * c.2)) 0

/-- The bytes of a 176-bit stream: byte k is stream bits 8*k+7 .. 8*k (R110). -/
def streamBytes (s : BitVec 176) : Vector Byte 22 :=
  ⟨((List.range 22).map fun k => s.extractLsb' (8 * k) 8).toArray, by simp⟩

/-- `pack(ch)` for sixteen values of any width (R110). -/
def pack {w : Nat} (ch : Vector (BitVec w) 16) : Vector Byte 22 := streamBytes (packStream ch)

/-- The 176-bit stream of 22 bytes: byte k at stream bit 8*k (R111). -/
def byteStream (pk : Vector Byte 22) : BitVec 176 :=
  pk.toList.zipIdx.foldl (fun acc b => acc ||| streamField b.1 (8 * b.2)) 0

/-- The channels of a 176-bit stream: channel i is stream bits 11*i+10 .. 11*i (R111). -/
def streamChannels (s : BitVec 176) : Vector Channel 16 :=
  ⟨((List.range 16).map fun i => s.extractLsb' (11 * i) 11).toArray, by simp⟩

/-- `unpack(pk)` (R111). -/
def unpack (pk : Vector Byte 22) : Vector Channel 16 := streamChannels (byteStream pk)

end Sys2Proof
end

