-- ==== Sys2Proof/Machine/Codec.lean ====
section
/-! DEFINITION. The channel packer and the frame encoders (spec 41_frame_codec.md R110 to R124). All four
operations are pure: they write no state field (20_memory.md R47). -/

namespace Sys2Proof.Machine

/-- `rc_frame(ch)`, 26 bytes (R71, R115). -/
def rcFrame {w : Nat} (ch : Vector (BitVec w) 16) : List Byte :=
  [Config.sync, Config.rcLen, Config.typeRcChannels] ++ (pack ch).toList
    ++ [crc8 (Config.typeRcChannels :: (pack ch).toList)]

/-- The body of a command frame without its checksum: type, destination, origin, function, payloadSize,
payload (R72, R120). -/
def cmdBody (p : Params) (fn : Byte) (l : List Byte) : List Byte :=
  [Config.typeMspCommand, p.cmdDest, p.cmdOrigin, fn, BitVec.ofNat 8 l.length] ++ l

/-- `cmd_frame(fn, P)`, 8 + n bytes (R72, R120). -/
def cmdFrame (p : Params) (fn : Byte) (l : List Byte) : List Byte :=
  [Config.sync, BitVec.ofNat 8 (6 + l.length)] ++ cmdBody p fn l ++ [crc8 (cmdBody p fn l)]

/-- ENC_CMD under a configuration: the payload bound is checked before any frame is formed (R121, R122, R205). -/
def encCmdWith (p : Params) (fn : Byte) (n : BitVec 6) (pay : Vector Byte Config.cmdMaxPayload)
    (s : State) : State :=
  if n.toNat > p.cmdMaxPayload then s.raise .errPrecond
  else s.emit (cmdFrame p fn (payloadOperand n pay))

/-- PACK (R113). -/
def execPack (ch : Vector Lane 16) (s : State) : Host.Outcome State Fault Refusal :=
  .next (s.emit (pack ch).toList)

/-- UNPACK (R114). -/
def execUnpack (pk : Vector Byte 22) (s : State) : Host.Outcome State Fault Refusal :=
  .next (s.respond { Response.plain with ch := some (unpack pk) })

/-- ENC_RC (R116). -/
def execEncRc (ch : Vector Lane 16) (s : State) : Host.Outcome State Fault Refusal :=
  .next (s.emit (rcFrame ch))

/-- ENC_CMD (R122). -/
def execEncCmd (fn : Byte) (n : BitVec 6) (pay : Vector Byte Config.cmdMaxPayload) (s : State) :
    Host.Outcome State Fault Refusal :=
  .next (encCmdWith Config.hw fn n pay s)

end Sys2Proof.Machine
end

