-- ==== Sys2Proof/Machine/Control.lean ====
section
/-! DEFINITION. NOP and the reserved operation codes (spec 44_block_control.md R190, R191). -/

namespace Sys2Proof.Machine

/-- NOP: no state is written (R190). -/
def execNop (s : State) : Host.Outcome State Fault Refusal := .next (s.respond Response.plain)

/-- A reserved operation code raises ERR_ILLEGAL, whichever of 0x8 to 0xF it is (R191, R202). -/
def execReserved (_op : BitVec 3) (s : State) : Host.Outcome State Fault Refusal :=
  .next (s.raise .errIllegal)

end Sys2Proof.Machine
end

