-- ==== Sys2Proof/Machine/Flags.lean ====
section
/-! DEFINITION. The two flag computations of the block: link_ok from decoded link statistics (spec
43_framer.md R170) and crc_ok of a received frame (R160). -/

namespace Sys2Proof.Machine

/-- `(lq > 50) and (rssi1 > -100 or rssi2 > -100)` on signed integers (R170). -/
def linkFlag (v : LinkStats) : Bool :=
  decide (v.lq.toInt > 50) && (decide (v.rssi1.toInt > -100) || decide (v.rssi2.toInt > -100))

/-- `crc_ok = (crc8(F[2 .. L]) == F[L + 1])` (R160). -/
def frameCrcOk (f : List Byte) : Bool := crc8 (frameCovered f) == frameCrc f

end Sys2Proof.Machine
end

