-- ==== Sys2Proof/Machine/Framer.lean ====
section
/-! DEFINITION. The byte-stream framer and the handling of a complete frame by its type (spec
43_framer.md R150 to R177). Every function takes the configuration; the meanings use this hardware's. -/

namespace Sys2Proof.Machine

/-! ### Events (R170 to R175) -/

/-- The event of a frame: what every event carries of it (R175), with its kind and values. -/
def frameEvent (f : List Byte) (k : EventKind) (v1 v2 v3 v4 v5 : Value) : Event where
  kind := k
  value1 := v1
  value2 := v2
  value3 := v3
  value4 := v4
  value5 := v5
  type := frameType f
  len := frameLen f
  crcOk := frameCrcOk f
  frame := f

/-- The unknown-frame event: the type byte and the length byte (R174). -/
def unknownEvent (f : List Byte) : Event :=
  frameEvent f .unknown ((frameType f).setWidth 32) ((frameLen f).setWidth 32) 0 0 0

/-- The event of a decoded LINK_STATISTICS frame (R170). -/
def linkStatsEvent (f : List Byte) (v : LinkStats) : Event :=
  frameEvent f .linkStats v.rssi1 v.rssi2 v.lq v.snr v.txPower

/-- The event of a BATTERY_SENSOR frame, decoded or not (R171, R174). -/
def batteryEvent (p : Params) (f : List Byte) : Event :=
  match p.decBat (framePayload f) with
  | none => unknownEvent f
  | some v => frameEvent f .battery v.voltageMv v.currentMa v.capacityMah 0 0

/-- The event of an ATTITUDE frame, decoded or not (R172, R174). -/
def attitudeEvent (p : Params) (f : List Byte) : Event :=
  match p.decAtt (framePayload f) with
  | none => unknownEvent f
  | some v => frameEvent f .attitude v.pitch v.roll v.yaw 0 0

/-- The event of a FLIGHT_MODE frame, decoded or not (R173, R174). -/
def flightModeEvent (p : Params) (f : List Byte) : Event :=
  match p.decFm (framePayload f) with
  | none => unknownEvent f
  | some v => frameEvent f .flightMode v 0 0 0 0

/-! ### The handling of a complete frame by type -/

/-- Whether the checksum check discards the frame (R161). -/
def crcDrops (p : Params) (f : List Byte) : Bool := p.rxCrcCheck && !frameCrcOk f

/-- A frame that writes no state: discarded silently, or its event notified (R161, R162, R176). -/
def handleFrame (p : Params) (f : List Byte) (e : Event) (s : State) : State :=
  if crcDrops p f then s.rxRespond .dropCrc else s.notify e

/-- A LINK_STATISTICS frame: the checksum check, then link_ok written and the sample notified when the
payload decodes, the unknown-frame event and no write when it does not (R161, R170). -/
def handleLinkStats (p : Params) (f : List Byte) (s : State) : State :=
  if crcDrops p f then s.rxRespond .dropCrc
  else
    match p.decLs (framePayload f) with
    | none => s.notify (unknownEvent f)
    | some v => { s with linkOk := linkFlag v }.notify (linkStatsEvent f v)

/-- `dispatch(F)`: the frame's type selects its handling (R160, R162). -/
def dispatch (p : Params) (f : List Byte) (s : State) : State :=
  match FrameType.ofByte (frameType f) with
  | .rcChannels => handleFrame p f (unknownEvent f) s
  | .mspCommand => handleFrame p f (unknownEvent f) s
  | .linkStatistics => handleLinkStats p f s
  | .batterySensor => handleFrame p f (batteryEvent p f) s
  | .attitude => handleFrame p f (attitudeEvent p f) s
  | .flightMode => handleFrame p f (flightModeEvent p f) s
  | .unknown => handleFrame p f (unknownEvent f) s

/-! ### The framer (R150 to R158) -/

/-- The index of the scratch at which the framer stores the next byte it keeps: 0 in IDLE (R152), 1 in
LEN (R153), rx_idx in BODY (R156). -/
def State.storeIndex (s : State) : Nat :=
  match s.rxState with
  | .idle => 0
  | .len => 1
  | .body => s.rxIdx.toNat

/-- Store the byte at the store index. -/
def State.store (s : State) (b : Byte) : State := s.bufWrite s.storeIndex b

/-- RX_BYTE in IDLE (R152). -/
def rxIdle (b : Byte) (s : State) : State :=
  if b = Config.sync then { s.store b with rxIdx := 1, rxState := .len }.rxRespond .progress
  else s.rxRespond .none

/-- RX_BYTE in LEN (R153, R154). -/
def rxLength (p : Params) (b : Byte) (s : State) : State :=
  if b.toNat > p.rxMaxLen ∨ b.toNat < p.rxMinLen then s.toIdle.rxRespond .dropLen
  else { s.store b with rxLen := b, rxIdx := 2, rxState := .body }.rxRespond .progress

/-- Whether one more byte exceeds the scratch capacity (R157). -/
abbrev State.overflows (p : Params) (s : State) : Prop := s.rxIdx.toNat + 1 > p.rxBufCap

/-- Whether one more byte completes the frame (R156). -/
abbrev State.completes (s : State) : Prop := s.rxIdx.toNat + 1 = s.rxLen.toNat + 2

/-- The frame that byte `b` completes: the stored bytes, then `b` (R150). -/
def State.frameWith (s : State) (b : Byte) : List Byte :=
  (List.range s.rxIdx.toNat).map s.bufRead ++ [b]

/-- RX_BYTE in BODY: the capacity check, then the completion check (R155 to R157, R205). -/
def rxBody (p : Params) (b : Byte) (s : State) : State :=
  if s.overflows p then s.toIdle.rxRespond .dropOvf
  else if s.completes then dispatch p (s.frameWith b) (s.store b).toIdle
  else { s.store b with rxIdx := BitVec.ofNat 7 (s.rxIdx.toNat + 1) }.rxRespond .progress

/-- `RX_BYTE(B)`: rx_state alone selects the behaviour (R150, R151). -/
def rxByteWith (p : Params) (b : Byte) (s : State) : State :=
  match s.rxState with
  | .idle => rxIdle b s
  | .len => rxLength p b s
  | .body => rxBody p b s

/-! ### The meanings -/

/-- RX_BYTE (R150). -/
def execRxByte (b : Byte) (s : State) : Host.Outcome State Fault Refusal :=
  .next (rxByteWith Config.hw b s)

/-- A received RC_CHANNELS frame is an unknown frame (R74, R174). -/
def execFrameRcChannels (f : List Byte) (s : State) : Host.Outcome State Fault Refusal :=
  .next (handleFrame Config.hw f (unknownEvent f) s)

/-- A received MSP_COMMAND frame is an unknown frame (R74, R174). -/
def execFrameMspCommand (f : List Byte) (s : State) : Host.Outcome State Fault Refusal :=
  .next (handleFrame Config.hw f (unknownEvent f) s)

/-- A received LINK_STATISTICS frame (R170). -/
def execFrameLinkStatistics (f : List Byte) (s : State) : Host.Outcome State Fault Refusal :=
  .next (handleLinkStats Config.hw f s)

/-- A received BATTERY_SENSOR frame (R171). -/
def execFrameBatterySensor (f : List Byte) (s : State) : Host.Outcome State Fault Refusal :=
  .next (handleFrame Config.hw f (batteryEvent Config.hw f) s)

/-- A received ATTITUDE frame (R172). -/
def execFrameAttitude (f : List Byte) (s : State) : Host.Outcome State Fault Refusal :=
  .next (handleFrame Config.hw f (attitudeEvent Config.hw f) s)

/-- A received FLIGHT_MODE frame (R173). -/
def execFrameFlightMode (f : List Byte) (s : State) : Host.Outcome State Fault Refusal :=
  .next (handleFrame Config.hw f (flightModeEvent Config.hw f) s)

/-- A received frame of any other type (R174). -/
def execFrameUnknown (f : List Byte) (s : State) : Host.Outcome State Fault Refusal :=
  .next (handleFrame Config.hw f (unknownEvent f) s)

end Sys2Proof.Machine
end

