-- ==== Sys2Proof/Machine/Dispatch.lean ====
section
/-! DEFINITION. One arm per instruction: each is one direct call of that instruction's meaning. -/

namespace Sys2Proof.Machine

def exec (i : Instr) (s : State) : Host.Outcome State Fault Refusal :=
  match i with
  | .nop => Sys2Proof.Machine.execNop s
  | .crcInit => Sys2Proof.Machine.execCrcInit s
  | .crcByte b => Sys2Proof.Machine.execCrcByte b s
  | .pack ch => Sys2Proof.Machine.execPack ch s
  | .unpack pk => Sys2Proof.Machine.execUnpack pk s
  | .encRc ch => Sys2Proof.Machine.execEncRc ch s
  | .encCmd fn n pay => Sys2Proof.Machine.execEncCmd fn n pay s
  | .rxByte b => Sys2Proof.Machine.execRxByte b s
  | .reserved op => Sys2Proof.Machine.execReserved op s
  | .frameRcChannels f => Sys2Proof.Machine.execFrameRcChannels f s
  | .frameMspCommand f => Sys2Proof.Machine.execFrameMspCommand f s
  | .frameLinkStatistics f => Sys2Proof.Machine.execFrameLinkStatistics f s
  | .frameBatterySensor f => Sys2Proof.Machine.execFrameBatterySensor f s
  | .frameAttitude f => Sys2Proof.Machine.execFrameAttitude f s
  | .frameFlightMode f => Sys2Proof.Machine.execFrameFlightMode f s
  | .frameUnknown f => Sys2Proof.Machine.execFrameUnknown f s

end Sys2Proof.Machine
end

