-- ==== Sys2Proof/WellFormed.lean ====
section
/-! DEFINITION. Which instructions are well formed. The operands of the request rows are well formed by
their types. A frame row carries a complete frame that the framer can hand over: sync byte, a length
byte in the accepted range that tells the frame's length, and a type byte that selects the row
(spec 30_encoding.md R70, R74, R75; 43_framer.md R153, R156). -/

namespace Sys2Proof

/-- The frame has its sync and its length byte (R70). -/
abbrev FrameHasHeader (f : List Byte) : Prop := 2 ≤ f.length

/-- The frame begins with the sync byte (R70). -/
abbrev FrameHasSync (f : List Byte) : Prop := f.head? = some Config.sync

/-- The length byte is in RX_MIN_LEN to RX_MAX_LEN (R75). -/
abbrev FrameLenAccepted (f : List Byte) : Prop :=
  Config.hw.rxMinLen ≤ (frameLen f).toNat ∧ (frameLen f).toNat ≤ Config.hw.rxMaxLen

/-- The frame has L + 2 bytes (R70, R75). -/
abbrev FrameLenTold (f : List Byte) : Prop := f.length = (frameLen f).toNat + 2

/-- A complete frame as the framer hands it over (R70, R75, R156). -/
abbrev FrameComplete (f : List Byte) : Prop :=
  FrameHasHeader f ∧ FrameHasSync f ∧ FrameLenAccepted f ∧ FrameLenTold f

/-- A complete frame whose type byte selects the row `t` (R74). -/
abbrev FrameOfType (t : FrameType) (f : List Byte) : Prop :=
  FrameComplete f ∧ FrameType.ofByte (frameType f) = t

/-- The check of an instruction. -/
def Instr.wellFormed (i : Instr) : Bool :=
  match i with
  | .nop => true
  | .crcInit => true
  | .crcByte _ => true
  | .pack _ => true
  | .unpack _ => true
  | .encRc _ => true
  | .encCmd _ _ _ => true
  | .rxByte _ => true
  | .reserved _ => true
  | .frameRcChannels f => decide (FrameOfType .rcChannels f)
  | .frameMspCommand f => decide (FrameOfType .mspCommand f)
  | .frameLinkStatistics f => decide (FrameOfType .linkStatistics f)
  | .frameBatterySensor f => decide (FrameOfType .batterySensor f)
  | .frameAttitude f => decide (FrameOfType .attitude f)
  | .frameFlightMode f => decide (FrameOfType .flightMode f)
  | .frameUnknown f => decide (FrameOfType .unknown f)

/-- The well-formed instructions. -/
abbrev Instr.WellFormed (i : Instr) : Prop := i.wellFormed = true

end Sys2Proof
end

