-- ==== Sys2Proof/Decode.lean ====
section
/-! DEFINITION. The decoder and the encoder of both encodings of the block (spec 30_encoding.md): the
18-bit request word with its buses (R60 to R64) and the wire frame (R70 to R75). The request map is
total: every word selects exactly one row (R64). A byte list that is no complete frame is rejected by name. -/

namespace Sys2Proof

/-- What the block is handed: a request on its port, or the bytes of a complete received frame. -/
inductive Encoded where
  | request (r : Request)
  | frame (f : List Byte)
  deriving DecidableEq, Repr

/-- Why a byte list is no complete frame (R70, R75). -/
inductive DecodeError where
  /-- fewer than two bytes: no length byte -/
  | noHeader
  /-- byte 0 is not 0xC8 -/
  | badSync
  /-- the length byte is outside RX_MIN_LEN to RX_MAX_LEN -/
  | badLength
  /-- the number of bytes is not L + 2 -/
  | lengthMismatch
  deriving DecidableEq, Repr

/-! ### Decoding -/

/-- The operation a request selects, by OP alone (R63, R64). -/
def decodeRequest (r : Request) : Instr :=
  match r.op.toNat with
  | 0 => .nop
  | 1 => .crcInit
  | 2 => .crcByte r.b
  | 3 => .pack r.ch
  | 4 => .unpack r.pk
  | 5 => .encRc r.ch
  | 6 => .encCmd r.b r.n r.pay
  | 7 => .rxByte r.b
  | _ => .reserved (r.op.extractLsb' 0 3)

/-- The frame row that a frame's type byte selects (R74, R162). -/
def instrOfFrame (f : List Byte) : Instr :=
  match FrameType.ofByte (frameType f) with
  | .rcChannels => .frameRcChannels f
  | .mspCommand => .frameMspCommand f
  | .linkStatistics => .frameLinkStatistics f
  | .batterySensor => .frameBatterySensor f
  | .attitude => .frameAttitude f
  | .flightMode => .frameFlightMode f
  | .unknown => .frameUnknown f

/-- The frame row of a complete frame; any other byte list is rejected by name (R70, R75). -/
def decodeFrame (f : List Byte) : Except DecodeError Instr :=
  if ¬ FrameHasHeader f then .error .noHeader
  else if ¬ FrameHasSync f then .error .badSync
  else if ¬ FrameLenAccepted f then .error .badLength
  else if ¬ FrameLenTold f then .error .lengthMismatch
  else .ok (instrOfFrame f)

/-- The decoder. -/
def decode (e : Encoded) : Except DecodeError Instr :=
  match e with
  | .request r => .ok (decodeRequest r)
  | .frame f => decodeFrame f

/-! ### Encoding -/

/-- The encoding of an instruction: fields and buses its operation ignores are 0 (R60, R61, R85). -/
def encode (i : Instr) : Encoded :=
  match i with
  | .nop => .request (Request.ofWord (requestWord 0x0 0 0))
  | .crcInit => .request (Request.ofWord (requestWord 0x1 0 0))
  | .crcByte b => .request (Request.ofWord (requestWord 0x2 b 0))
  | .pack ch => .request { Request.ofWord (requestWord 0x3 0 0) with ch := ch }
  | .unpack pk => .request { Request.ofWord (requestWord 0x4 0 0) with pk := pk }
  | .encRc ch => .request { Request.ofWord (requestWord 0x5 0 0) with ch := ch }
  | .encCmd fn n pay => .request { Request.ofWord (requestWord 0x6 fn n) with pay := pay }
  | .rxByte b => .request (Request.ofWord (requestWord 0x7 b 0))
  | .reserved op => .request (Request.ofWord (requestWord (0x8 ||| op.setWidth 4) 0 0))
  | .frameRcChannels f => .frame f
  | .frameMspCommand f => .frame f
  | .frameLinkStatistics f => .frame f
  | .frameBatterySensor f => .frame f
  | .frameAttitude f => .frame f
  | .frameFlightMode f => .frame f
  | .frameUnknown f => .frame f

/-- The envelope of a frame: sync, length, type, payload, checksum (R70). -/
def envelope (ty : Byte) (payload : List Byte) : List Byte :=
  [Config.sync, BitVec.ofNat 8 (payload.length + 2), ty] ++ payload ++ [crc8 (ty :: payload)]

/-! ### The rows of spec/opcode_table.json -/

/-- The row's mask and match: of the request word for a request row (R63), of the frame's type byte for
a frame row (R74). FRAME_UNKNOWN is "any other" and has no bits of its own. -/
structure TableRow where
  mask : Nat
  pattern : Nat
  deriving DecidableEq, Repr

/-- The opcode-table row of an instruction. -/
def Instr.row (i : Instr) : TableRow :=
  match i with
  | .nop => ⟨0xF, 0x0⟩
  | .crcInit => ⟨0xF, 0x1⟩
  | .crcByte _ => ⟨0xF, 0x2⟩
  | .pack _ => ⟨0xF, 0x3⟩
  | .unpack _ => ⟨0xF, 0x4⟩
  | .encRc _ => ⟨0xF, 0x5⟩
  | .encCmd _ _ _ => ⟨0xF, 0x6⟩
  | .rxByte _ => ⟨0xF, 0x7⟩
  | .reserved _ => ⟨0x8, 0x8⟩
  | .frameRcChannels _ => ⟨0xFF, 0x16⟩
  | .frameMspCommand _ => ⟨0xFF, 0x7A⟩
  | .frameLinkStatistics _ => ⟨0xFF, 0x14⟩
  | .frameBatterySensor _ => ⟨0xFF, 0x08⟩
  | .frameAttitude _ => ⟨0xFF, 0x1E⟩
  | .frameFlightMode _ => ⟨0xFF, 0x21⟩
  | .frameUnknown _ => ⟨0x00, 0x00⟩

/-- The bits of an encoding that the opcode table gives: the request word, or the frame's type byte. -/
def Encoded.tableBits (e : Encoded) : Nat :=
  match e with
  | .request r => r.word.toNat
  | .frame f => (frameType f).toNat

/-- The encoding that bits `w` of the opcode table stand for, `nbits` of them in whole bytes
(notes/assumptions/11). No bits is FRAME_UNKNOWN's row, type byte 0. One byte that is the code of a
frame row is that row's type byte, in the shortest frame of that type with a right checksum. Any other
bits are a request word with zero buses. -/
def tableEncoded (nbits w : Nat) : Option Encoded :=
  if nbits = 0 then some (.frame (envelope 0 []))
  else if nbits ≤ 8 ∧ FrameType.ofByte (BitVec.ofNat 8 w) ≠ .unknown then
    some (.frame (envelope (BitVec.ofNat 8 w) []))
  else if w < 2 ^ 18 then some (.request (Request.ofWord (BitVec.ofNat 18 w)))
  else none

/-- The instruction the decoder reads from an instruction of the opcode table whose bits are `w`. -/
def decodeTableWord (nbits w : Nat) : Option Instr :=
  match tableEncoded nbits w with
  | none => none
  | some e =>
    match decode e with
    | .ok i => some i
    | .error _ => none

end Sys2Proof
end

