-- ==== Sys2Proof/Machine/Port.lean ====
section
/-! DEFINITION. The request port: which input a step takes and which instruction it is (spec 20_memory.md
R46, 60_exceptions.md R205, R211, 70_reset_and_hazards.md R230), and how an instruction of the opcode
table is presented there. -/

namespace Sys2Proof.Machine

/-- Drive the input ports; the outputs follow at once (R143, R211). -/
def State.drive (s : State) (p : Ports) : State := { s with ports := p }

/-- Take the next input: the instruction it presents, none where it is no request, and the state it
leaves for the instruction. A step takes at most one input, and none when none is presented (R46). -/
def fetch (s : State) : Option Instr × State :=
  match s.inbox with
  | [] => (none, s)
  | .drive p :: rest => (none, { s with inbox := rest }.drive p)
  | .reset :: rest => (none, { s with inbox := rest }.takeReset)
  | .request r :: rest => (some (decodeRequest r), { s with inbox := rest })

/-- The request RX_BYTE b (R60). -/
def rxByteRequest (b : Byte) : Request := Request.ofWord (requestWord 0x7 b 0)

/-- Present a request before every input still to come. -/
def State.present (s : State) (r : Request) : State := { s with inbox := .request r :: s.inbox }

/-- Store a list of bytes at the indices from `i` on. -/
def State.bufFill (s : State) (i : Nat) (l : List Byte) : State :=
  match l with
  | [] => s
  | b :: rest => (s.bufWrite i b).bufFill (i + 1) rest

/-- Put the framer where it stands when all but the last byte of the frame `f` have been accepted, and
present the last one: the next step runs the frame's row (notes/assumptions/8). -/
def State.presentFrame (s : State) (f : List Byte) : State :=
  { s.bufFill 0 f.dropLast with
      rxState := .body
      rxLen := frameLen f
      rxIdx := BitVec.ofNat 7 (f.length - 1) }.present (rxByteRequest (byteAt f (f.length - 1)))

/-- Present the instruction of the opcode table whose bits are `w`. -/
def State.presentTableWord (s : State) (nbits w : Nat) : State :=
  match tableEncoded nbits w with
  | none => s
  | some (.request r) => s.present r
  | some (.frame f) => s.presentFrame f

end Sys2Proof.Machine
end

