-- ==== Sys2Proof/Machine/Step.lean ====
section
/-! DEFINITION. One step: take the next input; where it is a request, run its instruction (spec
20_memory.md R46). -/

namespace Sys2Proof.Machine

/-- One step of the block (R46): at most one request is accepted, performed completely and answered. -/
def step (s : State) : Host.Outcome State Fault Refusal :=
  match fetch s with
  | (none, t) => .next t
  | (some i, t) => exec i t

/-- `s` with the instruction of the opcode table whose bits are `w` presented, so that the next step runs
it (notes/assumptions 1, 11). -/
def State.withFetchWord (s : State) (nbits w : Nat) : State := s.presentTableWord nbits w

end Sys2Proof.Machine
end

