-- ==== Sys2Proof/Machine/Codes.lean ====
section
/-! DEFINITION. The numeric codes of rx_state and of the response's fields (spec 10_state.md R24,
30_encoding.md R80 to R82). -/

namespace Sys2Proof.Machine

/-- IDLE = 0, LEN = 1, BODY = 2 (R24). -/
def RxState.code (x : RxState) : BitVec 2 :=
  match x with
  | .idle => 0
  | .len => 1
  | .body => 2

/-- OK = 0, ERR_PRECOND = 1, ERR_ILLEGAL = 2 (R80, R200). -/
def Status.code (x : Status) : Nat :=
  match x with
  | .ok => 0
  | .errPrecond => 1
  | .errIllegal => 2

/-- NONE = 0, PROGRESS = 1, DISPATCH = 2, DROP_LEN = 3, DROP_OVF = 4, DROP_CRC = 5 (R81). -/
def RxStatus.code (x : RxStatus) : Nat :=
  match x with
  | .none => 0
  | .progress => 1
  | .dispatch => 2
  | .dropLen => 3
  | .dropOvf => 4
  | .dropCrc => 5

/-- LINK_STATS = 1, BATTERY = 2, ATTITUDE = 3, FLIGHT_MODE = 4, UNKNOWN = 5 (R82). -/
def EventKind.code (x : EventKind) : Nat :=
  match x with
  | .linkStats => 1
  | .battery => 2
  | .attitude => 3
  | .flightMode => 4
  | .unknown => 5

end Sys2Proof.Machine
end

