-- ==== Sys2Proof/Machine/Gate.lean ====
section
/-! DEFINITION. The safety-gate mux and the output ports: combinational functions of the state and the
input ports, with no step of their own (spec 42_safety_gate.md R140 to R146, 10_state.md R29). -/

namespace Sys2Proof.Machine

/-- `gate(req, armed, link, ovr)` (R140). -/
def gate (req : Throttle) (armed link ovr : Bool) : Throttle :=
  if armed && (link || ovr) then req else 0

/-- The output port gate_out (R142). -/
def State.gateOut (s : State) : Throttle :=
  gate s.ports.gateReqIn s.ports.armedIn s.linkOk s.ports.overrideIn

/-- The output port crc_out (R29). -/
def State.crcOut (s : State) : Byte := s.crcAcc

/-- The output port link_ok_out (R29). -/
def State.linkOkOut (s : State) : Bool := s.linkOk

end Sys2Proof.Machine
end

