-- ==== Sys2Proof/Safety.lean ====
section
/-! DEFINITION. The terms in which the claims speak of runs: the framer's invariant (spec 10_state.md R32),
several steps, and the responses they return. -/

namespace Sys2Proof.Machine

/-- Every index below `n` of the scratch has been written since reset (R27). -/
def Memory.writtenBelow (m : Memory) (n : Nat) : Prop := ∀ i < n, (m.find i).isSome

/-- What R32 says of the framer's fields, with every stored byte written since reset (R27). -/
def State.FramerInv (s : State) : Prop :=
  match s.rxState with
  | .idle => s.rxIdx = 0
  | .len => s.rxIdx = 1 ∧ s.rxBuf.find 0 = some Config.sync
  | .body =>
    Config.hw.rxMinLen ≤ s.rxLen.toNat ∧ s.rxLen.toNat ≤ Config.hw.rxMaxLen
      ∧ s.rxBuf.find 0 = some Config.sync ∧ s.rxBuf.find 1 = some s.rxLen
      ∧ 2 ≤ s.rxIdx.toNat ∧ s.rxIdx.toNat < s.rxLen.toNat + 2
      ∧ s.rxIdx.toNat ≤ Config.hw.rxBufCap
      ∧ s.rxBuf.writtenBelow s.rxIdx.toNat

/-- The invariant of the machine: the framer's (R32) and the scratch's canonical form. -/
def State.Inv (s : State) : Prop := s.FramerInv ∧ s.rxBuf.wf

/-- `n` steps, stopping at the first fault or refusal. -/
def steps (n : Nat) (s : State) : Host.Outcome State Fault Refusal :=
  match n with
  | 0 => .next s
  | n + 1 =>
    match step s with
    | .next t => steps n t
    | .fault r => .fault r
    | .refused r => .refused r

/-- The state after an outcome, where there is one. -/
def after (o : Host.Outcome State Fault Refusal) : Option State :=
  match o with
  | .next t => some t
  | .fault _ => none
  | .refused _ => none

/-- The responses standing after each of the first `n` steps. -/
def responses (n : Nat) (s : State) : List (Option Response) :=
  (List.range n).map fun k => (after (steps (k + 1) s)).bind State.response

/-- The inputs that present the bytes of `l` to RX_BYTE, in order. -/
def rxInputs (l : List Byte) : List Input := l.map fun b => .request (rxByteRequest b)

/-- The byte an input folds into the checksum accumulator, if it is a CRC_BYTE request (R104). -/
def crcOperand (x : Input) : Option Byte :=
  match x with
  | .request r =>
    match decodeRequest r with
    | .crcByte b => some b
    | _ => none
  | .drive _ => none
  | .reset => none

/-- An input that starts no new checksum: neither a reset nor CRC_INIT (R104). -/
def keepsChecksum (x : Input) : Prop :=
  match x with
  | .request r => decodeRequest r ≠ .crcInit
  | .drive _ => True
  | .reset => False

/-- The instructions that write no state field: all but CRC_INIT, CRC_BYTE, RX_BYTE and a LINK_STATISTICS
frame (R47, R171 to R174). -/
def writesNoState (i : Instr) : Prop :=
  match i with
  | .crcInit => False
  | .crcByte _ => False
  | .rxByte _ => False
  | .frameLinkStatistics _ => False
  | _ => True

/-- RX_BYTE of `b` stores the byte: a sync byte in IDLE, an accepted length byte in LEN, a body byte within
the capacity in BODY (R152, R153, R156). -/
def State.rxStores (s : State) (b : Byte) : Prop :=
  match s.rxState with
  | .idle => b = Config.sync
  | .len => Config.hw.rxMinLen ≤ b.toNat ∧ b.toNat ≤ Config.hw.rxMaxLen
  | .body => s.rxIdx.toNat + 1 ≤ Config.hw.rxBufCap

/-- The polynomial over GF(2) whose coefficients are the bits of a byte (R105). -/
noncomputable def gf2Poly (v : Byte) : Polynomial (ZMod 2) :=
  ∑ i ∈ Finset.range 8, if v.getLsbD i then Polynomial.X ^ i else 0

/-- x^8 + x^7 + x^6 + x^4 + x^2 + 1 (R105). -/
noncomputable def crcPolynomial : Polynomial (ZMod 2) :=
  Polynomial.X ^ 8 + Polynomial.X ^ 7 + Polynomial.X ^ 6 + Polynomial.X ^ 4 + Polynomial.X ^ 2 + 1

end Sys2Proof.Machine
end

