-- ==== Sys2Proof/Certificates/Slice0/Obligations.lean ====
section
/-! DEFINITION. The statements for the provers. Each docstring names the rule of spec/ it formalises. -/

open Sys2Proof Sys2Proof.Machine

/-! ### Reset and the step -/

/-- R33: the reset value of every field that has one. -/
def Obligations.ResetHoldsTheStatedValues : Prop :=
  State.reset.crcAcc = 0x00 ∧ State.reset.rxState = .idle ∧ State.reset.rxLen = 0x00
    ∧ State.reset.rxIdx = 0 ∧ State.reset.linkOk = false

/-- R230: reset between requests sets every field to its reset value, with no response and no event. That the
inputs still to come and the ports stay is the model's choice (notes/assumptions 12 and 3), no rule of the spec. -/
def Obligations.ResetTransitionSetsEveryField : Prop :=
  ∀ (s : State) (rest : List Input), s.inbox = .reset :: rest →
    ∃ t, step s = .next t ∧ t.crcAcc = 0x00 ∧ t.rxState = .idle ∧ t.rxLen = 0x00 ∧ t.rxIdx = 0
      ∧ t.linkOk = false ∧ t.response = none ∧ t.inbox = rest ∧ t.ports = s.ports

/-- The model's choice for R33's "any byte" (notes/assumptions/2): right after a reset every index of the
scratch reads as a free byte, drawn anew at each reset. -/
def Obligations.ScratchAfterResetIsAFreeDraw : Prop :=
  (∀ i, State.reset.bufRead i = Config.scratchDraw 0 i)
    ∧ ∀ (s : State) (rest : List Input) (i : Nat), s.inbox = .reset :: rest →
      ∃ t, step s = .next t ∧ t.bufRead i = Config.scratchDraw (s.rxDraw + 1) i

/-- R231: a reset discards a partial frame without an event, and right after it the gate passes only when
armed and overridden. -/
def Obligations.ResetDiscardsThePartialFrameAndClosesTheGate : Prop :=
  ∀ (s : State) (rest : List Input), s.inbox = .reset :: rest →
    ∃ t, step s = .next t ∧ t.rxState = .idle ∧ t.rxIdx = 0 ∧ t.response = none
      ∧ t.gateOut
        = if s.ports.armedIn = true ∧ s.ports.overrideIn = true then s.ports.gateReqIn else 0

/-- R46: a step whose next input is a request runs the decoded instruction on the state without that input. -/
def Obligations.StepRunsTheDecodedRequest : Prop :=
  ∀ (s : State) (r : Request) (rest : List Input), s.inbox = .request r :: rest →
    step s = exec (decodeRequest r) { s with inbox := rest }

/-- The model's choice (notes/assumptions/1): with no input a step changes nothing; driving the input ports
changes the ports alone. -/
def Obligations.IdleAndPortStepsTouchNoOtherField : Prop :=
  (∀ s : State, s.inbox = [] → step s = .next s)
    ∧ ∀ (s : State) (p : Ports) (rest : List Input), s.inbox = .drive p :: rest →
      step s = .next { s with inbox := rest, ports := p }

/-- R247: every step completes, and a request returns its response. -/
def Obligations.EveryStepCompletesAndEveryRequestIsAnswered : Prop :=
  ∀ s : State, ∃ t, step s = .next t
    ∧ ∀ (r : Request) (rest : List Input), s.inbox = .request r :: rest → t.response ≠ none

/-- R234: this hardware's configuration is a legal one. -/
def Obligations.ThisConfigurationIsLegal : Prop := Config.hw.Legal

/-- R24, R80, R81, R82: the numeric codes. -/
def Obligations.ResponseCodesAreTheSpecs : Prop :=
  [RxState.idle, .len, .body].map RxState.code = [0, 1, 2]
    ∧ [Status.ok, .errPrecond, .errIllegal].map Status.code = [0, 1, 2]
    ∧ [RxStatus.none, .progress, .dispatch, .dropLen, .dropOvf, .dropCrc].map RxStatus.code
      = [0, 1, 2, 3, 4, 5]
    ∧ [EventKind.linkStats, .battery, .attitude, .flightMode, .unknown].map EventKind.code
      = [1, 2, 3, 4, 5]

/-! ### Encodings -/

/-- R85 and 95_test_vectors.md: request words and a wire frame the spec writes out decode to their instructions. -/
def Obligations.WordsTheSpecWritesOutDecode : Prop :=
  decodeRequest (Request.ofWord 0x00001) = .crcInit
    ∧ decodeRequest (Request.ofWord 0x00312) = .crcByte 0x31
    ∧ decodeRequest (Request.ofWord 0x00C87) = .rxByte 0xC8
    ∧ decodeRequest (Request.ofWord 0x042D6) = .encCmd 0x2D 4 (Vector.replicate 57 0)
    ∧ decodeRequest (Request.ofWord 0x00AB3) = .pack (Vector.replicate 16 0)
    ∧ decodeRequest (Request.ofWord 0x3FFF0) = .nop
    ∧ decodeRequest (Request.ofWord 0x00009) = .reserved 1
    ∧ decodeFrame [0xC8, 0x02, 0x16, 0xD3] = .ok (.frameRcChannels [0xC8, 0x02, 0x16, 0xD3])

/-- R63: OP = word[3:0] alone selects the operation; B = word[11:4] and N = word[17:12] are its operands. -/
def Obligations.OpAloneSelectsTheOperation : Prop :=
  ∀ r : Request,
    decodeRequest r =
      (if r.word.extractLsb' 0 4 = 0x0#4 then .nop
      else if r.word.extractLsb' 0 4 = 0x1#4 then .crcInit
      else if r.word.extractLsb' 0 4 = 0x2#4 then .crcByte (r.word.extractLsb' 4 8)
      else if r.word.extractLsb' 0 4 = 0x3#4 then .pack r.ch
      else if r.word.extractLsb' 0 4 = 0x4#4 then .unpack r.pk
      else if r.word.extractLsb' 0 4 = 0x5#4 then .encRc r.ch
      else if r.word.extractLsb' 0 4 = 0x6#4 then
        .encCmd (r.word.extractLsb' 4 8) (r.word.extractLsb' 12 6) r.pay
      else if r.word.extractLsb' 0 4 = 0x7#4 then .rxByte (r.word.extractLsb' 4 8)
      else .reserved (r.word.extractLsb' 0 3))

/-- Decoding undoes encoding, for every well-formed instruction of both encodings (R60, R63, R70, R74). -/
def Obligations.DecodeUndoesEncode : Prop :=
  ∀ i : Instr, i.WellFormed → decode (encode i) = .ok i

/-- R70, R74: the envelope of a type and a payload the framer accepts decodes to the row its type byte selects,
with its fields and a right checksum read back. -/
def Obligations.EnvelopeFieldsReadBack : Prop :=
  ∀ (ty : Byte) (l : List Byte), l.length ≤ 60 →
    decodeFrame (envelope ty l) = .ok (instrOfFrame (envelope ty l))
      ∧ instrOfFrame (envelope ty l) =
        (if ty = 0x16 then .frameRcChannels (envelope ty l)
        else if ty = 0x7A then .frameMspCommand (envelope ty l)
        else if ty = 0x14 then .frameLinkStatistics (envelope ty l)
        else if ty = 0x08 then .frameBatterySensor (envelope ty l)
        else if ty = 0x1E then .frameAttitude (envelope ty l)
        else if ty = 0x21 then .frameFlightMode (envelope ty l)
        else .frameUnknown (envelope ty l))
      ∧ frameType (envelope ty l) = ty ∧ framePayload (envelope ty l) = l
      ∧ frameCrcOk (envelope ty l) = true

/-- R70: every frame the block encodes has the envelope: sync, a length byte that counts the bytes after it,
and the checksum of bytes 2 to L at the end. -/
def Obligations.EveryEncodedFrameHasTheEnvelope : Prop :=
  ∀ (i : Instr) (s t : State) (r : Response),
    ((∃ ch, i = .encRc ch) ∨ ∃ fn n pay, i = .encCmd fn n pay ∧ n.toNat ≤ 57) →
    exec i s = .next t → t.response = some r →
    r.out.head? = some 0xC8 ∧ r.out.length = (byteAt r.out 1).toNat + 2
      ∧ byteAt r.out ((byteAt r.out 1).toNat + 1) = crc8 (slice r.out 2 (byteAt r.out 1).toNat)

/-! ### NOP and the reserved codes -/

/-- R190: OP 0x0 with any B and N is NOP, which writes no state and answers OK. -/
def Obligations.NopWritesNothing : Prop :=
  (∀ (b : Byte) (n : BitVec 6) ch pk pay,
      decodeRequest ⟨requestWord 0x0 b n, ch, pk, pay⟩ = .nop)
    ∧ ∀ s : State,
      exec .nop s = .next { s with response := some ⟨.ok, [], none, .none, none⟩ }

/-- R191: OP 0x8 to 0xF with any B and N raises ERR_ILLEGAL and writes no state. -/
def Obligations.ReservedCodesRaiseErrIllegal : Prop :=
  (∀ (k : BitVec 3) (b : Byte) (n : BitVec 6) ch pk pay,
      decodeRequest ⟨requestWord (0x8 ||| k.setWidth 4) b n, ch, pk, pay⟩ = .reserved k)
    ∧ ∀ (k : BitVec 3) (s : State),
      exec (.reserved k) s = .next { s with response := some ⟨.errIllegal, [], none, .none, none⟩ }

/-! ### The checksum unit -/

/-- R102: CRC_INIT clears crc_acc. -/
def Obligations.CrcInitClearsTheAccumulator : Prop :=
  (∀ (b : Byte) (n : BitVec 6) ch pk pay,
      decodeRequest ⟨requestWord 0x1 b n, ch, pk, pay⟩ = .crcInit)
    ∧ ∀ s : State,
      exec .crcInit s
        = .next { s with crcAcc := 0x00, response := some ⟨.ok, [], none, .none, none⟩ }

/-- R103: CRC_BYTE folds B into crc_acc, which crc_out shows; a byte equal to the accumulator gives 0. -/
def Obligations.CrcByteFoldsTheByte : Prop :=
  (∀ (b : Byte) (n : BitVec 6) ch pk pay,
      decodeRequest ⟨requestWord 0x2 b n, ch, pk, pay⟩ = .crcByte b)
    ∧ (∀ (b : Byte) (s : State), ∃ t, exec (.crcByte b) s = .next t
      ∧ t = { s with
          crcAcc := crcStep s.crcAcc b
          response := some ⟨.ok, [], none, .none, none⟩ }
      ∧ t.crcOut = crcStep s.crcAcc b)
    ∧ crcStep 0x00 0x00 = 0x00 ∧ (∀ a : Byte, crcStep a a = 0x00) ∧ crcStep 0x00 0x01 = 0xD5

/-- R104: after CRC_INIT, with requests of any other kind interleaved, crc_acc is crc8 of the bytes of the
CRC_BYTE requests in order, whoever presented them. -/
def Obligations.ChecksumOfAnInterleavedSequence : Prop :=
  ∀ (s : State) (r : Request) (rest : List Input),
    s.inbox = .request r :: rest → decodeRequest r = .crcInit → (∀ x ∈ rest, keepsChecksum x) →
    ∃ t, steps (rest.length + 1) s = .next t ∧ t.crcAcc = crc8 (rest.filterMap crcOperand)

/-- R105 (a) and (c): zero bytes have checksum 0, and appending the checksum yields 0. -/
def Obligations.AppendedChecksumYieldsZero : Prop :=
  (∀ n : Nat, crc8 (List.replicate n 0x00) = 0x00) ∧ ∀ l : List Byte, crc8 (l ++ [crc8 l]) = 0x00

/-- R105 (d): the checksum is linear over lists of equal length. -/
def Obligations.ChecksumIsLinear : Prop :=
  ∀ l m : List Byte, l.length = m.length →
    crc8 (List.zipWith (· ^^^ ·) l m) = crc8 l ^^^ crc8 m

/-- R105 (b): crc_step is the remainder of ((a XOR b) * x^8) divided by the polynomial over GF(2). -/
def Obligations.CrcStepIsThePolynomialRemainder : Prop :=
  ∀ a b : Byte,
    gf2Poly (crcStep a b) = (gf2Poly (a ^^^ b) * Polynomial.X ^ 8) %ₘ crcPolynomial

/-- R23: crc_acc is written by CRC_INIT and CRC_BYTE and by no other operation. -/
def Obligations.OnlyChecksumOperationsWriteTheAccumulator : Prop :=
  ∀ (i : Instr) (s t : State), exec i s = .next t →
    t.crcAcc = match i with
      | .crcInit => 0x00
      | .crcByte b => crcStep s.crcAcc b
      | _ => s.crcAcc

/-! ### The packer and the encoders -/

/-- R42: PACK puts bit j of channel i at stream bit 11*i + j, stream bit k at bit k mod 8 of byte k div 8. -/
def Obligations.PackPlacesEveryChannelBit : Prop :=
  ∀ (ch : Vector Lane 16) (s : State), ∃ out : List Byte,
    exec (.pack ch) s = .next { s with response := some ⟨.ok, out, none, .none, none⟩ }
      ∧ out.length = 22
      ∧ ∀ (i j : Nat) (hi : i < 16), j < 11 →
        (out.getD ((11 * i + j) / 8) 0).getLsbD ((11 * i + j) % 8) = ch[i].getLsbD j

/-- R111, R114: UNPACK reads bit j of channel i from stream bit 11*i + j. -/
def Obligations.UnpackReadsEveryChannelBit : Prop :=
  ∀ (pk : Vector Byte 22) (s : State), ∃ chans : Vector Channel 16,
    exec (.unpack pk) s = .next { s with response := some ⟨.ok, [], some chans, .none, none⟩ }
      ∧ ∀ (i j : Nat) (hi : i < 16), j < 11 →
        chans[i].getLsbD j = (pk.toList.getD ((11 * i + j) / 8) 0).getLsbD ((11 * i + j) % 8)

/-- R112: pack and unpack are inverse on 11-bit values, and pack reads the low 11 bits alone. -/
def Obligations.PackAndUnpackAreInverse : Prop :=
  (∀ ch : Vector Channel 16, unpack (pack ch) = ch)
    ∧ (∀ pk : Vector Byte 22, pack (unpack pk) = pk)
    ∧ ∀ (w : Nat) (ch : Vector (BitVec w) 16),
      pack ch = pack (ch.map fun v => BitVec.ofNat 11 (v.toNat % 2048))
        ∧ ∀ (i : Nat) (hi : i < 16), (unpack (pack ch))[i].toNat = ch[i].toNat % 2048

/-- R115: ENC_RC answers the 26-byte RC-channels frame and writes no state. -/
def Obligations.EncRcEmitsTheRcFrame : Prop :=
  ∀ (ch : Vector Lane 16) (s : State), ∃ out : List Byte,
    exec (.encRc ch) s = .next { s with response := some ⟨.ok, out, none, .none, none⟩ }
      ∧ out.length = 26
      ∧ out = [0xC8, 0x18, 0x16] ++ (pack ch).toList ++ [crc8 ([0x16] ++ (pack ch).toList)]

/-- R72: ENC_CMD with at most 57 payload bytes answers the 8 + N byte command frame and writes no state. -/
def Obligations.EncCmdEmitsTheCommandFrame : Prop :=
  ∀ (fn : Byte) (n : BitVec 6) (pay : Vector Byte 57) (s : State), n.toNat ≤ 57 →
    ∃ body out : List Byte,
      body = [0x7A, Config.cmdDest, Config.cmdOrigin, fn, n.setWidth 8] ++ pay.toList.take n.toNat
        ∧ out = [0xC8, BitVec.ofNat 8 (6 + n.toNat)] ++ body ++ [crc8 body]
        ∧ out.length = 8 + n.toNat
        ∧ exec (.encCmd fn n pay) s
          = .next { s with response := some ⟨.ok, out, none, .none, none⟩ }

/-- R121: ENC_CMD with more than 57 payload bytes raises ERR_PRECOND, emits nothing, writes no state. -/
def Obligations.EncCmdRefusesALongPayload : Prop :=
  ∀ (fn : Byte) (n : BitVec 6) (pay : Vector Byte 57) (s : State), 57 < n.toNat →
    exec (.encCmd fn n pay) s
      = .next { s with response := some ⟨.errPrecond, [], none, .none, none⟩ }

/-- R123: the command frame with 57 payload bytes has a length byte above 62; fed to the framer in IDLE it
is dropped as DROP_LEN at its length byte. -/
def Obligations.LongestCommandFrameIsDroppedByTheFramer : Prop :=
  ∀ (fn : Byte) (pay : Vector Byte 57) (s : State) (rest : List Input),
    s.rxState = .idle →
    s.inbox = rxInputs (cmdFrame Config.hw fn (payloadOperand 57 pay)) ++ rest →
    62 < (frameLen (cmdFrame Config.hw fn (payloadOperand 57 pay))).toNat
      ∧ responses 2 s = [some ⟨.ok, [], none, .progress, none⟩, some ⟨.ok, [], none, .dropLen, none⟩]

/-! ### The framer -/

/-- R152: in IDLE a sync byte is stored at index 0 and starts a frame; any other byte changes no state. -/
def Obligations.RxByteInIdle : Prop :=
  ∀ (b : Byte) (s : State), s.rxState = .idle →
    ∃ t, exec (.rxByte b) s = .next t
      ∧ (b = 0xC8 →
        t = { s with
          rxBuf := t.rxBuf
          rxIdx := 1
          rxState := .len
          response := some ⟨.ok, [], none, .progress, none⟩ }
        ∧ t.bufRead 0 = 0xC8 ∧ ∀ a, a ≠ 0 → t.bufRead a = s.bufRead a)
      ∧ (b ≠ 0xC8 → t = { s with response := some ⟨.ok, [], none, .none, none⟩ })

/-- R153: in LEN a byte in 2 to 62 is the length: stored in rx_len and at index 1, rx_idx 2, BODY. -/
def Obligations.RxByteAcceptsALength : Prop :=
  ∀ (b : Byte) (s : State), s.rxState = .len → 2 ≤ b.toNat → b.toNat ≤ 62 →
    ∃ t, exec (.rxByte b) s = .next t
      ∧ t = { s with
          rxBuf := t.rxBuf
          rxLen := b
          rxIdx := 2
          rxState := .body
          response := some ⟨.ok, [], none, .progress, none⟩ }
      ∧ t.bufRead 1 = b ∧ ∀ a, a ≠ 1 → t.bufRead a = s.bufRead a

/-- R154: in LEN a byte above 62 or below 2 returns the framer to IDLE with DROP_LEN and no event; the byte
is consumed, also when it is 0xC8. -/
def Obligations.RxByteDropsALengthOutOfRange : Prop :=
  ∀ (b : Byte) (s : State), s.rxState = .len → (62 < b.toNat ∨ b.toNat < 2) →
    exec (.rxByte b) s
      = .next { s with
          rxState := .idle
          rxIdx := 0
          response := some ⟨.ok, [], none, .dropLen, none⟩ }

/-- R156: in BODY a byte within the capacity is stored at rx_idx, whatever its value; the byte that brings
the frame to rx_len + 2 bytes returns the framer to IDLE and the frame's row is run on it, any other
advances rx_idx. -/
def Obligations.RxByteInBody : Prop :=
  ∀ (b : Byte) (s : State), s.rxState = .body → s.rxIdx.toNat + 1 ≤ 64 →
    ∃ m : Memory, m.find s.rxIdx.toNat = some b
      ∧ (∀ a, a ≠ s.rxIdx.toNat → m.find a = s.rxBuf.find a)
      ∧ (s.rxIdx.toNat + 1 = s.rxLen.toNat + 2 →
        exec (.rxByte b) s
          = exec (instrOfFrame ((List.range s.rxIdx.toNat).map s.bufRead ++ [b]))
              { s with rxBuf := m, rxState := .idle, rxIdx := 0 })
      ∧ (s.rxIdx.toNat + 1 ≠ s.rxLen.toNat + 2 →
        exec (.rxByte b) s
          = .next { s with
              rxBuf := m
              rxIdx := s.rxIdx + 1
              response := some ⟨.ok, [], none, .progress, none⟩ })

/-- R157: a body byte past the capacity drops the partial frame as DROP_OVF before the completion check,
in every configuration; with this hardware's values no state of the invariant reaches it. -/
def Obligations.RxByteOverflow : Prop :=
  (∀ (p : Params) (b : Byte) (s : State), s.rxState = .body → s.rxIdx.toNat + 1 > p.rxBufCap →
      rxByteWith p b s
        = { s with rxState := .idle, rxIdx := 0, response := some ⟨.ok, [], none, .dropOvf, none⟩ })
    ∧ (∀ (b : Byte) (s : State), s.rxState = .body → s.rxIdx.toNat + 1 > 64 →
      exec (.rxByte b) s
        = .next { s with
            rxState := .idle
            rxIdx := 0
            response := some ⟨.ok, [], none, .dropOvf, none⟩ })
    ∧ ∀ (b : Byte) (s t : State) (r : Response), s.Inv → exec (.rxByte b) s = .next t →
      t.response = some r → r.rxStatus ≠ .dropOvf

/-- R47 and R150: what RX_BYTE leaves unchanged: every other register, every byte of the scratch but the one
at the store index, link_ok unless a frame completes, rx_len unless a length byte is accepted. -/
def Obligations.RxByteFrame : Prop :=
  ∀ (b : Byte) (s t : State), exec (.rxByte b) s = .next t →
    t.crcAcc = s.crcAcc ∧ t.rxDraw = s.rxDraw ∧ t.ports = s.ports ∧ t.inbox = s.inbox
      ∧ (¬ (s.rxState = .len ∧ s.rxStores b) → t.rxLen = s.rxLen)
      ∧ (¬ (s.rxState = .body ∧ s.rxStores b ∧ s.completes) → t.linkOk = s.linkOk)
      ∧ (∀ a, a ≠ s.storeIndex → t.bufRead a = s.bufRead a)
      ∧ (s.rxStores b → t.bufRead s.storeIndex = b)
      ∧ (¬ s.rxStores b → t.rxBuf = s.rxBuf)

/-- R176: the status of RX_BYTE is always OK, a drop has no event, only a dispatch has one; and after a
dispatch or a drop the framer is in IDLE, hunting for the next sync byte. -/
def Obligations.DropsAreSilentAndReturnToIdle : Prop :=
  ∀ (b : Byte) (s t : State) (r : Response), exec (.rxByte b) s = .next t → t.response = some r →
    r.status = .ok ∧ r.out = [] ∧ r.ch = none ∧ (r.ev ≠ none ↔ r.rxStatus = .dispatch)
      ∧ (r.rxStatus ∈ [.dispatch, .dropLen, .dropOvf, .dropCrc] → t.rxState = .idle ∧ t.rxIdx = 0)

/-- R159: a complete frame presented byte by byte to the framer in IDLE is reassembled: every byte but the
last answers PROGRESS, and the last runs the frame's row with the framer back in IDLE. -/
def Obligations.FramerReassemblesAnyCompleteFrame : Prop :=
  ∀ (s : State) (f : List Byte) (rest : List Input),
    FrameComplete f → s.rxState = .idle → s.inbox = rxInputs f ++ rest →
    responses (f.length - 1) s
        = List.replicate (f.length - 1) (some ⟨.ok, [], none, .progress, none⟩)
      ∧ ∃ m : Memory, (∀ (i : Nat) (h : i < f.length), m.find i = some f[i])
        ∧ steps f.length s
          = exec (instrOfFrame f)
              { s with
                inbox := rest
                rxState := .idle
                rxLen := frameLen f
                rxIdx := 0
                rxBuf := m }

/-- L1-12, P2, R174: an RC-channels frame the block encodes, fed back to the framer in IDLE, is dispatched as
an unknown frame with values (22, 24, 0, 0, 0) and a right checksum, whatever RX_CRC_CHECK is. -/
def Obligations.EncodedRcFrameLoopsBack : Prop :=
  ∀ (ch : Vector Lane 16) (s : State) (rest : List Input),
    s.rxState = .idle → s.inbox = rxInputs (rcFrame ch) ++ rest →
    ∃ t, steps 26 s = .next t ∧ t.rxState = .idle ∧ t.rxLen = 24 ∧ t.linkOk = s.linkOk
      ∧ t.crcAcc = s.crcAcc ∧ t.inbox = rest
      ∧ t.response
        = some ⟨.ok, [], none, .dispatch,
            some ⟨.unknown, 22, 24, 0, 0, 0, 0x16, 24, true, rcFrame ch⟩⟩

/-! ### The frame rows -/

/-- R174 and R161: a received frame of type 0x16, 0x7A or no known type writes no state; it is dropped by the
checksum check, or notified as an unknown frame with the type and the length byte. -/
def Obligations.UnknownFramesAreNotified : Prop :=
  ∀ (f : List Byte) (s : State), ∃ r : Response,
    r = (if Config.hw.rxCrcCheck = true
          ∧ crc8 (slice f 2 (byteAt f 1).toNat) ≠ byteAt f ((byteAt f 1).toNat + 1) then
        ⟨.ok, [], none, .dropCrc, none⟩
      else
        ⟨.ok, [], none, .dispatch,
          some ⟨.unknown, (byteAt f 2).setWidth 32, (byteAt f 1).setWidth 32, 0, 0, 0,
            byteAt f 2, byteAt f 1,
            crc8 (slice f 2 (byteAt f 1).toNat) == byteAt f ((byteAt f 1).toNat + 1), f⟩⟩)
    ∧ exec (.frameRcChannels f) s = .next { s with response := some r }
    ∧ exec (.frameMspCommand f) s = .next { s with response := some r }
    ∧ exec (.frameUnknown f) s = .next { s with response := some r }

/-- R170 and R161: a received LINK_STATISTICS frame writes link_ok and nothing else, when it is not dropped
and its payload decodes; otherwise no state field. -/
def Obligations.LinkStatisticsFrameWritesTheLinkFlag : Prop :=
  ∀ (f : List Byte) (s : State),
    exec (.frameLinkStatistics f) s = .next
      (if Config.hw.rxCrcCheck = true
          ∧ crc8 (slice f 2 (byteAt f 1).toNat) ≠ byteAt f ((byteAt f 1).toNat + 1) then
        { s with response := some ⟨.ok, [], none, .dropCrc, none⟩ }
      else
        match Config.hw.decLs (slice f 3 (byteAt f 1).toNat) with
        | none => { s with response := some ⟨.ok, [], none, .dispatch, some (unknownEvent f)⟩ }
        | some v =>
          { s with
            linkOk := decide (v.lq.toInt > 50 ∧ (v.rssi1.toInt > -100 ∨ v.rssi2.toInt > -100))
            response := some ⟨.ok, [], none, .dispatch,
              some ⟨.linkStats, v.rssi1, v.rssi2, v.lq, v.snr, v.txPower, byteAt f 2, byteAt f 1,
                crc8 (slice f 2 (byteAt f 1).toNat) == byteAt f ((byteAt f 1).toNat + 1), f⟩⟩ })

/-- R171 and R161: a received BATTERY_SENSOR frame writes no state; its event is the sample, or the
unknown-frame event when the payload does not decode. -/
def Obligations.BatteryFrameIsNotified : Prop :=
  ∀ (f : List Byte) (s : State),
    ∃ r : Response, r = (if Config.hw.rxCrcCheck = true
          ∧ crc8 (slice f 2 (byteAt f 1).toNat) ≠ byteAt f ((byteAt f 1).toNat + 1) then
        ⟨.ok, [], none, .dropCrc, none⟩
      else
        ⟨.ok, [], none, .dispatch,
          some (match Config.hw.decBat (slice f 3 (byteAt f 1).toNat) with
            | none => unknownEvent f
            | some v => ⟨.battery, v.voltageMv, v.currentMa, v.capacityMah, 0, 0, byteAt f 2, byteAt f 1,
                crc8 (slice f 2 (byteAt f 1).toNat) == byteAt f ((byteAt f 1).toNat + 1), f⟩)⟩)
      ∧ exec (.frameBatterySensor f) s = .next { s with response := some r }

/-- R172 and R161: a received ATTITUDE frame writes no state; its event is the sample, or the unknown-frame
event when the payload does not decode. -/
def Obligations.AttitudeFrameIsNotified : Prop :=
  ∀ (f : List Byte) (s : State),
    ∃ r : Response, r = (if Config.hw.rxCrcCheck = true
          ∧ crc8 (slice f 2 (byteAt f 1).toNat) ≠ byteAt f ((byteAt f 1).toNat + 1) then
        ⟨.ok, [], none, .dropCrc, none⟩
      else
        ⟨.ok, [], none, .dispatch,
          some (match Config.hw.decAtt (slice f 3 (byteAt f 1).toNat) with
            | none => unknownEvent f
            | some v => ⟨.attitude, v.pitch, v.roll, v.yaw, 0, 0, byteAt f 2, byteAt f 1,
                crc8 (slice f 2 (byteAt f 1).toNat) == byteAt f ((byteAt f 1).toNat + 1), f⟩)⟩)
      ∧ exec (.frameAttitude f) s = .next { s with response := some r }

/-- R173 and R161: a received FLIGHT_MODE frame writes no state; its event is the sample, or the
unknown-frame event when the payload does not decode. -/
def Obligations.FlightModeFrameIsNotified : Prop :=
  ∀ (f : List Byte) (s : State),
    ∃ r : Response, r = (if Config.hw.rxCrcCheck = true
          ∧ crc8 (slice f 2 (byteAt f 1).toNat) ≠ byteAt f ((byteAt f 1).toNat + 1) then
        ⟨.ok, [], none, .dropCrc, none⟩
      else
        ⟨.ok, [], none, .dispatch,
          some (match Config.hw.decFm (slice f 3 (byteAt f 1).toNat) with
            | none => unknownEvent f
            | some v => ⟨.flightMode, v, 0, 0, 0, 0, byteAt f 2, byteAt f 1,
                crc8 (slice f 2 (byteAt f 1).toNat) == byteAt f ((byteAt f 1).toNat + 1), f⟩)⟩)
      ∧ exec (.frameFlightMode f) s = .next { s with response := some r }

/-- R161, in every configuration: with the check on, a frame with a wrong checksum is discarded and nothing
but the response changes; with it off, every frame is dispatched and its event reports crc_ok. -/
def Obligations.ChecksumCheckGovernsDispatch : Prop :=
  ∀ (p : Params) (f : List Byte) (s : State),
    (p.rxCrcCheck = true →
        crc8 (slice f 2 (byteAt f 1).toNat) ≠ byteAt f ((byteAt f 1).toNat + 1) →
        dispatch p f s = { s with response := some ⟨.ok, [], none, .dropCrc, none⟩ })
      ∧ (p.rxCrcCheck = false →
        ∃ e : Event, (dispatch p f s).response = some ⟨.ok, [], none, .dispatch, some e⟩
          ∧ e.crcOk = (crc8 (slice f 2 (byteAt f 1).toNat) == byteAt f ((byteAt f 1).toNat + 1)))

/-- R162, R174 and R175, in every configuration: a frame that is not discarded gives exactly one event, which
carries the frame, its type, its length byte and crc_ok. Type 0x14, 0x08, 0x1E or 0x21 whose decoder gives a
result selects that sample with its values; any other type, or no result, the unknown-frame event. -/
def Obligations.DispatchedFrameGivesOneEvent : Prop :=
  ∀ (p : Params) (f pl : List Byte) (s : State),
    (p.rxCrcCheck = false
      ∨ crc8 (slice f 2 (byteAt f 1).toNat) = byteAt f ((byteAt f 1).toNat + 1)) →
    pl = slice f 3 (byteAt f 1).toNat →
    ∃ e : Event, (dispatch p f s).response = some ⟨.ok, [], none, .dispatch, some e⟩
      ∧ e.type = byteAt f 2 ∧ e.len = byteAt f 1 ∧ e.frame = f
      ∧ e.crcOk = (crc8 (slice f 2 (byteAt f 1).toNat) == byteAt f ((byteAt f 1).toNat + 1))
      ∧ (e.kind = .linkStats → e.type = 0x14) ∧ (e.kind = .battery → e.type = 0x08)
      ∧ (e.kind = .attitude → e.type = 0x1E) ∧ (e.kind = .flightMode → e.type = 0x21)
      ∧ (∀ v, byteAt f 2 = 0x14 → p.decLs pl = some v →
        e.kind = .linkStats ∧ e.value1 = v.rssi1 ∧ e.value2 = v.rssi2 ∧ e.value3 = v.lq
          ∧ e.value4 = v.snr ∧ e.value5 = v.txPower)
      ∧ (∀ v, byteAt f 2 = 0x08 → p.decBat pl = some v →
        e.kind = .battery ∧ e.value1 = v.voltageMv ∧ e.value2 = v.currentMa ∧ e.value3 = v.capacityMah
          ∧ e.value4 = 0 ∧ e.value5 = 0)
      ∧ (∀ v, byteAt f 2 = 0x1E → p.decAtt pl = some v →
        e.kind = .attitude ∧ e.value1 = v.pitch ∧ e.value2 = v.roll ∧ e.value3 = v.yaw
          ∧ e.value4 = 0 ∧ e.value5 = 0)
      ∧ (∀ v, byteAt f 2 = 0x21 → p.decFm pl = some v →
        e.kind = .flightMode ∧ e.value1 = v ∧ e.value2 = 0 ∧ e.value3 = 0 ∧ e.value4 = 0 ∧ e.value5 = 0)
      ∧ ((byteAt f 2 = 0x14 → p.decLs pl = none) → (byteAt f 2 = 0x08 → p.decBat pl = none) →
        (byteAt f 2 = 0x1E → p.decAtt pl = none) → (byteAt f 2 = 0x21 → p.decFm pl = none) →
        e.kind = .unknown ∧ e.value1 = (byteAt f 2).setWidth 32 ∧ e.value2 = (byteAt f 1).setWidth 32
          ∧ e.value3 = 0 ∧ e.value4 = 0 ∧ e.value5 = 0)

/-- R170, in every configuration: a LINK_STATISTICS frame that is not discarded and decodes writes link_ok
from lq and the two rssi, whatever link_ok was; one that does not decode leaves link_ok and is unknown. -/
def Obligations.LinkFlagFollowsDecodedStatistics : Prop :=
  ∀ (p : Params) (f : List Byte) (s : State),
    (p.rxCrcCheck = false
      ∨ crc8 (slice f 2 (byteAt f 1).toNat) = byteAt f ((byteAt f 1).toNat + 1)) →
    byteAt f 2 = 0x14 →
    (∀ v : LinkStats, p.decLs (slice f 3 (byteAt f 1).toNat) = some v →
        ((dispatch p f s).linkOk = true
          ↔ v.lq.toInt > 50 ∧ (v.rssi1.toInt > -100 ∨ v.rssi2.toInt > -100))
        ∧ ∃ e : Event, (dispatch p f s).response = some ⟨.ok, [], none, .dispatch, some e⟩
          ∧ e.kind = .linkStats ∧ e.value1 = v.rssi1 ∧ e.value2 = v.rssi2 ∧ e.value3 = v.lq
          ∧ e.value4 = v.snr ∧ e.value5 = v.txPower)
      ∧ (p.decLs (slice f 3 (byteAt f 1).toNat) = none →
        (dispatch p f s).linkOk = s.linkOk
        ∧ (dispatch p f s).response = some ⟨.ok, [], none, .dispatch, some (unknownEvent f)⟩)

/-! ### The gate and the link flag -/

/-- R140, R141, R142: gate_out is the requested throttle bit for bit when armed and (link or override), else
the all-zero word, from the ports and link_ok of the same state. -/
def Obligations.GateOutIsTheGateOfThePortsAndTheLink : Prop :=
  ∀ s : State,
    (s.ports.armedIn = true ∧ (s.linkOk = true ∨ s.ports.overrideIn = true) →
        s.gateOut = s.ports.gateReqIn)
      ∧ (¬ (s.ports.armedIn = true ∧ (s.linkOk = true ∨ s.ports.overrideIn = true)) →
        s.gateOut = 0)

/-- R246: from the step that drives armed_in to 0, and on every run that never arms again, gate_out is 0. -/
def Obligations.DisarmedGateStaysClosedOnEveryRun : Prop :=
  ∀ (n : Nat) (s t : State) (p : Ports) (rest : List Input),
    s.inbox = .drive p :: rest → p.armedIn = false →
    (∀ q, Input.drive q ∈ rest → q.armedIn = false) →
    steps (n + 1) s = .next t → t.gateOut = 0

/-- R28: a step changes link_ok only by a reset, or by an RX_BYTE that completes a LINK_STATISTICS frame whose
payload decodes, and then to the value R170 computes. -/
def Obligations.OnlyDecodedLinkStatisticsChangeTheLinkFlag : Prop :=
  ∀ s t : State, step s = .next t → t.linkOk ≠ s.linkOk →
    (∃ rest, s.inbox = .reset :: rest)
      ∨ ∃ r rest b v, s.inbox = .request r :: rest ∧ decodeRequest r = .rxByte b
        ∧ s.rxState = .body ∧ s.rxIdx.toNat + 1 = s.rxLen.toNat + 2
        ∧ frameType (s.frameWith b) = 0x14
        ∧ Config.hw.decLs (framePayload (s.frameWith b)) = some v
        ∧ (t.linkOk = true ↔ v.lq.toInt > 50 ∧ (v.rssi1.toInt > -100 ∨ v.rssi2.toInt > -100))

/-! ### Frames, errors, and what a request can read -/

/-- R47: NOP, PACK, UNPACK, ENC_RC, ENC_CMD, the reserved codes and every frame but LINK_STATISTICS write no
state field: registers, scratch, ports and inputs are unchanged. -/
def Obligations.RequestsWithoutSideEffectWriteNoState : Prop :=
  ∀ (i : Instr) (s t : State), writesNoState i → exec i s = .next t →
    t = { s with response := t.response } ∧ ∀ a, t.bufRead a = s.bufRead a

/-- R47: a request with no side effect is idempotent: repeated, it returns the same response. -/
def Obligations.RequestsWithoutSideEffectAreIdempotent : Prop :=
  ∀ (i : Instr) (s t : State), writesNoState i → exec i s = .next t → exec i t = .next t

/-- R203: a request that raises an error has no effect: the state is as before, `out` empty, `ch` absent,
rx_status NONE, no event. -/
def Obligations.ErrorsHaveNoEffect : Prop :=
  ∀ (i : Instr) (s t : State) (r : Response), exec i s = .next t → t.response = some r →
    r.status ≠ .ok → t = { s with response := some ⟨r.status, [], none, .none, none⟩ }

/-- R201, R202: ERR_PRECOND is raised only by ENC_CMD with more than 57 bytes, ERR_ILLEGAL only by the
reserved codes. -/
def Obligations.ErrorsAreRaisedOnlyWhereStated : Prop :=
  ∀ (i : Instr) (s t : State) (r : Response), exec i s = .next t → t.response = some r →
    (r.status = .errPrecond ↔ ∃ fn n pay, i = .encCmd fn n pay ∧ 57 < n.toNat)
      ∧ (r.status = .errIllegal ↔ ∃ k, i = .reserved k)

/-- R30 and R29: no request reads the last response, the input ports or the inputs still to come. -/
def Obligations.NoRequestReadsResponseOrPorts : Prop :=
  ∀ (i : Instr) (s t : State) (r : Option Response) (p : Ports) (q : List Input),
    exec i s = .next t →
    exec i { s with response := r, ports := p, inbox := q } = .next { t with ports := p, inbox := q }

/-- R27 and U1: in a state of the invariant, no free byte of the unwritten scratch reaches a response or a
field: a run of the instruction under another draw is the same but for the draw. -/
def Obligations.FreeScratchBytesReachNoResponse : Prop :=
  ∀ (i : Instr) (s t : State) (k : Nat), s.Inv → exec i s = .next t →
    exec i { s with rxDraw := k } = .next { t with rxDraw := k }

/-! ### The invariant -/

/-- R32 at reset: the state right after reset satisfies the invariant. -/
def Obligations.ResetSatisfiesTheFramerInvariant : Prop := State.reset.Inv

/-- R32: every step from a state of the invariant, with any inputs, leads to a state of the invariant. -/
def Obligations.EveryStepKeepsTheFramerInvariant : Prop :=
  ∀ s t : State, s.Inv → step s = .next t → t.Inv

/-- R32: every state reachable from reset, under any inputs and ports, has the framer's fields as stated. -/
def Obligations.EveryReachableStateHasTheFramerInvariant : Prop :=
  ∀ (n : Nat) (p : Ports) (q : List Input) (t : State),
    steps n { State.reset with ports := p, inbox := q } = .next t →
    (t.rxState = .idle → t.rxIdx = 0)
      ∧ (t.rxState = .len → t.rxIdx = 1 ∧ t.bufRead 0 = 0xC8)
      ∧ (t.rxState = .body → 2 ≤ t.rxLen.toNat ∧ t.rxLen.toNat ≤ 62 ∧ t.bufRead 0 = 0xC8
        ∧ t.bufRead 1 = t.rxLen ∧ 2 ≤ t.rxIdx.toNat ∧ t.rxIdx.toNat < t.rxLen.toNat + 2
        ∧ t.rxIdx.toNat ≤ 64)

/-! ### The output ports -/

/-- R28, R29: in every state crc_out shows crc_acc and link_ok_out shows link_ok; the third output port is
stated in GateOutIsTheGateOfThePortsAndTheLink. -/
def Obligations.OutputPortsShowTheRegisters : Prop :=
  ∀ s : State, s.crcOut = s.crcAcc ∧ s.linkOkOut = s.linkOk
end

