-- ==== Sys2Proof/Laws/Crc.lean ====
section
/-! SUPPORT. The fold laws of the checksum (spec 40_checksum.md R100, R101). -/

namespace Sys2Proof

@[simp] theorem crcFold_nil (a : Byte) : crcFold a [] = a := rfl

@[simp] theorem crcFold_cons (a b : Byte) (l : List Byte) :
    crcFold a (b :: l) = crcFold (crcStep a b) l := rfl

theorem crcFold_append (a : Byte) (l m : List Byte) :
    crcFold a (l ++ m) = crcFold (crcFold a l) m := by
  simp [crcFold, List.foldl_append]

/-- A step depends on the accumulator and the byte through their XOR alone (R103). -/
theorem crcStep_xor (a b : Byte) : crcStep a b = crcStep 0 (a ^^^ b) := by
  simp [crcStep]

end Sys2Proof
end

