-- ==== Sys2Proof/Laws/Decode.lean ====
section
/-! SUPPORT. The fields of a composed request word (spec 30_encoding.md R60) and of an envelope (R70). -/

namespace Sys2Proof

@[simp] theorem requestWord_op (op : BitVec 4) (b : Byte) (n : BitVec 6) :
    (requestWord op b n).extractLsb' 0 4 = op := by
  ext i hi
  have h1 : i < 18 := by omega
  have h2 : i < 12 := by omega
  simp [requestWord, BitVec.getElem_extractLsb', hi, h1, h2]

@[simp] theorem requestWord_b (op : BitVec 4) (b : Byte) (n : BitVec 6) :
    (requestWord op b n).extractLsb' 4 8 = b := by
  ext i hi
  have h : 4 + i < 18 := by omega
  have h1 : 4 + i < 12 := by omega
  simp [requestWord, h, h1, hi]

@[simp] theorem requestWord_n (op : BitVec 4) (b : Byte) (n : BitVec 6) :
    (requestWord op b n).extractLsb' 12 6 = n := by
  ext i hi
  have h : 12 + i < 18 := by omega
  have h2 : 8 ≤ 12 + i - 4 := by omega
  have h3 : 4 ≤ 12 + i := by omega
  simp [requestWord, hi, h, BitVec.getLsbD_of_ge op _ h3, BitVec.getLsbD_of_ge b _ h2]

/-- `decodeFrame` answers only on a complete frame, and then with the row its type byte selects. -/
theorem decodeFrame_ok_iff (f : List Byte) (i : Instr) :
    decodeFrame f = .ok i ↔ FrameComplete f ∧ i = instrOfFrame f := by
  unfold decodeFrame
  by_cases h1 : FrameHasHeader f
  · rw [if_neg (not_not.mpr h1)]
    by_cases h2 : FrameHasSync f
    · rw [if_neg (not_not.mpr h2)]
      by_cases h3 : FrameLenAccepted f
      · rw [if_neg (not_not.mpr h3)]
        by_cases h4 : FrameLenTold f
        · rw [if_neg (not_not.mpr h4)]
          exact ⟨fun h => ⟨⟨h1, h2, h3, h4⟩, (Except.ok.inj h).symm⟩, fun h => by rw [h.2]⟩
        · rw [if_pos h4]
          exact ⟨fun h => (nomatch h), fun h => absurd h.1.2.2.2 h4⟩
      · rw [if_pos h3]
        exact ⟨fun h => (nomatch h), fun h => absurd h.1.2.2.1 h3⟩
    · rw [if_pos h2]
      exact ⟨fun h => (nomatch h), fun h => absurd h.1.2.1 h2⟩
  · rw [if_pos h1]
    exact ⟨fun h => (nomatch h), fun h => absurd h.1.1 h1⟩

/-- The length byte of an envelope. -/
theorem frameLen_envelope (ty : Byte) (l : List Byte) :
    frameLen (envelope ty l) = BitVec.ofNat 8 (l.length + 2) := rfl

/-- The type byte of an envelope. -/
theorem frameType_envelope (ty : Byte) (l : List Byte) : frameType (envelope ty l) = ty := rfl

/-- The number of bytes of an envelope. -/
theorem envelope_length (ty : Byte) (l : List Byte) : (envelope ty l).length = l.length + 4 := by
  simp [envelope]

end Sys2Proof
end

