-- ==== Sys2Proof/Laws/State.lean ====
section
/-! SUPPORT. One lemma per field per update of the state, so that no proof unfolds a record update; and
the updates that are a response by definition. -/

namespace Sys2Proof.Machine

/-! ### The response -/

@[simp] theorem Response.plain_eq : Response.plain = ⟨.ok, [], none, .none, none⟩ := rfl

@[simp] theorem State.respond_crcAcc (s : State) (r : Response) : (s.respond r).crcAcc = s.crcAcc := rfl
@[simp] theorem State.respond_rxState (s : State) (r : Response) : (s.respond r).rxState = s.rxState := rfl
@[simp] theorem State.respond_rxLen (s : State) (r : Response) : (s.respond r).rxLen = s.rxLen := rfl
@[simp] theorem State.respond_rxIdx (s : State) (r : Response) : (s.respond r).rxIdx = s.rxIdx := rfl
@[simp] theorem State.respond_rxBuf (s : State) (r : Response) : (s.respond r).rxBuf = s.rxBuf := rfl
@[simp] theorem State.respond_linkOk (s : State) (r : Response) : (s.respond r).linkOk = s.linkOk := rfl
@[simp] theorem State.respond_rxDraw (s : State) (r : Response) : (s.respond r).rxDraw = s.rxDraw := rfl
@[simp] theorem State.respond_ports (s : State) (r : Response) : (s.respond r).ports = s.ports := rfl
@[simp] theorem State.respond_inbox (s : State) (r : Response) : (s.respond r).inbox = s.inbox := rfl
@[simp] theorem State.respond_response (s : State) (r : Response) : (s.respond r).response = some r := rfl

@[simp] theorem State.emit_eq (s : State) (l : List Byte) :
    s.emit l = s.respond ⟨.ok, l, none, .none, none⟩ := rfl
@[simp] theorem State.rxRespond_eq (s : State) (x : RxStatus) :
    s.rxRespond x = s.respond ⟨.ok, [], none, x, none⟩ := rfl
@[simp] theorem State.notify_eq (s : State) (e : Event) :
    s.notify e = s.respond ⟨.ok, [], none, .dispatch, some e⟩ := rfl
@[simp] theorem State.raise_eq (s : State) (e : Status) :
    s.raise e = s.respond ⟨e, [], none, .none, none⟩ := rfl
@[simp] theorem State.respond_respond (s : State) (q r : Response) :
    (s.respond q).respond r = s.respond r := rfl

/-! ### The checksum accumulator -/

@[simp] theorem State.writeCrc_crcAcc (s : State) (a : Byte) : (s.writeCrc a).crcAcc = a := rfl
@[simp] theorem State.writeCrc_rxState (s : State) (a : Byte) : (s.writeCrc a).rxState = s.rxState := rfl
@[simp] theorem State.writeCrc_rxLen (s : State) (a : Byte) : (s.writeCrc a).rxLen = s.rxLen := rfl
@[simp] theorem State.writeCrc_rxIdx (s : State) (a : Byte) : (s.writeCrc a).rxIdx = s.rxIdx := rfl
@[simp] theorem State.writeCrc_rxBuf (s : State) (a : Byte) : (s.writeCrc a).rxBuf = s.rxBuf := rfl
@[simp] theorem State.writeCrc_linkOk (s : State) (a : Byte) : (s.writeCrc a).linkOk = s.linkOk := rfl
@[simp] theorem State.writeCrc_rxDraw (s : State) (a : Byte) : (s.writeCrc a).rxDraw = s.rxDraw := rfl
@[simp] theorem State.writeCrc_ports (s : State) (a : Byte) : (s.writeCrc a).ports = s.ports := rfl
@[simp] theorem State.writeCrc_inbox (s : State) (a : Byte) : (s.writeCrc a).inbox = s.inbox := rfl
@[simp] theorem State.writeCrc_response (s : State) (a : Byte) : (s.writeCrc a).response = some ⟨.ok, [], none, .none, none⟩ := rfl

/-! ### The scratch -/

@[simp] theorem State.bufWrite_crcAcc (s : State) (i : Nat) (v : Byte) : (s.bufWrite i v).crcAcc = s.crcAcc := rfl
@[simp] theorem State.bufWrite_rxState (s : State) (i : Nat) (v : Byte) : (s.bufWrite i v).rxState = s.rxState := rfl
@[simp] theorem State.bufWrite_rxLen (s : State) (i : Nat) (v : Byte) : (s.bufWrite i v).rxLen = s.rxLen := rfl
@[simp] theorem State.bufWrite_rxIdx (s : State) (i : Nat) (v : Byte) : (s.bufWrite i v).rxIdx = s.rxIdx := rfl
@[simp] theorem State.bufWrite_rxBuf (s : State) (i : Nat) (v : Byte) : (s.bufWrite i v).rxBuf = s.rxBuf.write i v := rfl
@[simp] theorem State.bufWrite_linkOk (s : State) (i : Nat) (v : Byte) : (s.bufWrite i v).linkOk = s.linkOk := rfl
@[simp] theorem State.bufWrite_rxDraw (s : State) (i : Nat) (v : Byte) : (s.bufWrite i v).rxDraw = s.rxDraw := rfl
@[simp] theorem State.bufWrite_ports (s : State) (i : Nat) (v : Byte) : (s.bufWrite i v).ports = s.ports := rfl
@[simp] theorem State.bufWrite_inbox (s : State) (i : Nat) (v : Byte) : (s.bufWrite i v).inbox = s.inbox := rfl
@[simp] theorem State.bufWrite_response (s : State) (i : Nat) (v : Byte) : (s.bufWrite i v).response = s.response := rfl

@[simp] theorem State.store_crcAcc (s : State) (b : Byte) : (s.store b).crcAcc = s.crcAcc := rfl
@[simp] theorem State.store_rxState (s : State) (b : Byte) : (s.store b).rxState = s.rxState := rfl
@[simp] theorem State.store_rxLen (s : State) (b : Byte) : (s.store b).rxLen = s.rxLen := rfl
@[simp] theorem State.store_rxIdx (s : State) (b : Byte) : (s.store b).rxIdx = s.rxIdx := rfl
@[simp] theorem State.store_rxBuf (s : State) (b : Byte) : (s.store b).rxBuf = s.rxBuf.write s.storeIndex b := rfl
@[simp] theorem State.store_linkOk (s : State) (b : Byte) : (s.store b).linkOk = s.linkOk := rfl
@[simp] theorem State.store_rxDraw (s : State) (b : Byte) : (s.store b).rxDraw = s.rxDraw := rfl
@[simp] theorem State.store_ports (s : State) (b : Byte) : (s.store b).ports = s.ports := rfl
@[simp] theorem State.store_inbox (s : State) (b : Byte) : (s.store b).inbox = s.inbox := rfl
@[simp] theorem State.store_response (s : State) (b : Byte) : (s.store b).response = s.response := rfl

/-! ### The framer's return to IDLE, reset, the ports -/

@[simp] theorem State.toIdle_crcAcc (s : State) : (s.toIdle).crcAcc = s.crcAcc := rfl
@[simp] theorem State.toIdle_rxState (s : State) : (s.toIdle).rxState = .idle := rfl
@[simp] theorem State.toIdle_rxLen (s : State) : (s.toIdle).rxLen = s.rxLen := rfl
@[simp] theorem State.toIdle_rxIdx (s : State) : (s.toIdle).rxIdx = 0 := rfl
@[simp] theorem State.toIdle_rxBuf (s : State) : (s.toIdle).rxBuf = s.rxBuf := rfl
@[simp] theorem State.toIdle_linkOk (s : State) : (s.toIdle).linkOk = s.linkOk := rfl
@[simp] theorem State.toIdle_rxDraw (s : State) : (s.toIdle).rxDraw = s.rxDraw := rfl
@[simp] theorem State.toIdle_ports (s : State) : (s.toIdle).ports = s.ports := rfl
@[simp] theorem State.toIdle_inbox (s : State) : (s.toIdle).inbox = s.inbox := rfl
@[simp] theorem State.toIdle_response (s : State) : (s.toIdle).response = s.response := rfl

@[simp] theorem State.takeReset_crcAcc (s : State) : (s.takeReset).crcAcc = 0 := rfl
@[simp] theorem State.takeReset_rxState (s : State) : (s.takeReset).rxState = .idle := rfl
@[simp] theorem State.takeReset_rxLen (s : State) : (s.takeReset).rxLen = 0 := rfl
@[simp] theorem State.takeReset_rxIdx (s : State) : (s.takeReset).rxIdx = 0 := rfl
@[simp] theorem State.takeReset_rxBuf (s : State) : (s.takeReset).rxBuf = [] := rfl
@[simp] theorem State.takeReset_linkOk (s : State) : (s.takeReset).linkOk = false := rfl
@[simp] theorem State.takeReset_rxDraw (s : State) : (s.takeReset).rxDraw = s.rxDraw + 1 := rfl
@[simp] theorem State.takeReset_ports (s : State) : (s.takeReset).ports = s.ports := rfl
@[simp] theorem State.takeReset_inbox (s : State) : (s.takeReset).inbox = s.inbox := rfl
@[simp] theorem State.takeReset_response (s : State) : (s.takeReset).response = none := rfl

@[simp] theorem State.drive_crcAcc (s : State) (p : Ports) : (s.drive p).crcAcc = s.crcAcc := rfl
@[simp] theorem State.drive_rxState (s : State) (p : Ports) : (s.drive p).rxState = s.rxState := rfl
@[simp] theorem State.drive_rxLen (s : State) (p : Ports) : (s.drive p).rxLen = s.rxLen := rfl
@[simp] theorem State.drive_rxIdx (s : State) (p : Ports) : (s.drive p).rxIdx = s.rxIdx := rfl
@[simp] theorem State.drive_rxBuf (s : State) (p : Ports) : (s.drive p).rxBuf = s.rxBuf := rfl
@[simp] theorem State.drive_linkOk (s : State) (p : Ports) : (s.drive p).linkOk = s.linkOk := rfl
@[simp] theorem State.drive_rxDraw (s : State) (p : Ports) : (s.drive p).rxDraw = s.rxDraw := rfl
@[simp] theorem State.drive_ports (s : State) (p : Ports) : (s.drive p).ports = p := rfl
@[simp] theorem State.drive_inbox (s : State) (p : Ports) : (s.drive p).inbox = s.inbox := rfl
@[simp] theorem State.drive_response (s : State) (p : Ports) : (s.drive p).response = s.response := rfl

@[simp] theorem State.present_crcAcc (s : State) (r : Request) : (s.present r).crcAcc = s.crcAcc := rfl
@[simp] theorem State.present_rxState (s : State) (r : Request) : (s.present r).rxState = s.rxState := rfl
@[simp] theorem State.present_rxLen (s : State) (r : Request) : (s.present r).rxLen = s.rxLen := rfl
@[simp] theorem State.present_rxIdx (s : State) (r : Request) : (s.present r).rxIdx = s.rxIdx := rfl
@[simp] theorem State.present_rxBuf (s : State) (r : Request) : (s.present r).rxBuf = s.rxBuf := rfl
@[simp] theorem State.present_linkOk (s : State) (r : Request) : (s.present r).linkOk = s.linkOk := rfl
@[simp] theorem State.present_rxDraw (s : State) (r : Request) : (s.present r).rxDraw = s.rxDraw := rfl
@[simp] theorem State.present_ports (s : State) (r : Request) : (s.present r).ports = s.ports := rfl
@[simp] theorem State.present_inbox (s : State) (r : Request) : (s.present r).inbox = .request r :: s.inbox := rfl
@[simp] theorem State.present_response (s : State) (r : Request) : (s.present r).response = s.response := rfl

/-! ### What the store index is in each state of the framer (R152, R153, R156) -/

theorem State.storeIndex_idle (s : State) (h : s.rxState = .idle) : s.storeIndex = 0 := by
  simp [State.storeIndex, h]

theorem State.storeIndex_len (s : State) (h : s.rxState = .len) : s.storeIndex = 1 := by
  simp [State.storeIndex, h]

theorem State.storeIndex_body (s : State) (h : s.rxState = .body) :
    s.storeIndex = s.rxIdx.toNat := by
  simp [State.storeIndex, h]

end Sys2Proof.Machine
end

