-- ==== Sys2Proof/Laws/Framer.lean ====
section
/-! SUPPORT. What each shared operation of the framer can do, said once (spec 43_framer.md R150 to R176). -/

namespace Sys2Proof.Machine

/-- The flag a dispatch leaves in link_ok: computed from the decoded statistics of a LINK_STATISTICS frame
that is not discarded, unchanged otherwise (R28, R161, R170). -/
def linkAfter (p : Params) (f : List Byte) (old : Bool) : Bool :=
  if FrameType.ofByte (frameType f) = .linkStatistics ∧ crcDrops p f = false then
    match p.decLs (framePayload f) with
    | none => old
    | some v => linkFlag v
  else old

/-- The event of a dispatched frame, by its type (R162). -/
def eventOf (p : Params) (f : List Byte) : Event :=
  match FrameType.ofByte (frameType f) with
  | .rcChannels => unknownEvent f
  | .mspCommand => unknownEvent f
  | .linkStatistics =>
    match p.decLs (framePayload f) with
    | none => unknownEvent f
    | some v => linkStatsEvent f v
  | .batterySensor => batteryEvent p f
  | .attitude => attitudeEvent p f
  | .flightMode => flightModeEvent p f
  | .unknown => unknownEvent f

/-- The response of a dispatch: DROP_CRC and no event, or DISPATCH and the frame's event. -/
def dispatchResponse (p : Params) (f : List Byte) : Response :=
  if crcDrops p f = true then ⟨.ok, [], none, .dropCrc, none⟩
  else ⟨.ok, [], none, .dispatch, some (eventOf p f)⟩

/-- All a dispatch does: it writes link_ok and answers. -/
theorem dispatch_eq (p : Params) (f : List Byte) (s : State) :
    dispatch p f s
      = { s with linkOk := linkAfter p f s.linkOk, response := some (dispatchResponse p f) } := by
  unfold dispatch linkAfter dispatchResponse eventOf handleLinkStats handleFrame
  cases hd : crcDrops p f <;> cases ht : FrameType.ofByte (frameType f) <;>
    (simp [State.respond]; try (cases p.decLs (framePayload f) <;> rfl))

/-- The frame row that the type byte selects means the dispatch of the frame (R160, R162). -/
theorem exec_instrOfFrame (f : List Byte) (s : State) :
    exec (instrOfFrame f) s = .next (dispatch Config.hw f s) := by
  unfold instrOfFrame dispatch
  cases FrameType.ofByte (frameType f) <;> rfl

/-- RX_BYTE of a byte discarded in IDLE (R152). -/
theorem rxByteWith_hunt (p : Params) (b : Byte) (s : State) (h : s.rxState = .idle)
    (hb : b ≠ Config.sync) : rxByteWith p b s = s.rxRespond .none := by
  simp [rxByteWith, h, rxIdle, hb]

/-- RX_BYTE of a sync byte in IDLE (R152). -/
theorem rxByteWith_sync (p : Params) (s : State) (h : s.rxState = .idle) :
    rxByteWith p Config.sync s
      = { s.bufWrite 0 Config.sync with rxIdx := 1, rxState := .len }.rxRespond .progress := by
  simp [rxByteWith, h, rxIdle, State.store, State.storeIndex_idle s h]

/-- RX_BYTE of an accepted length byte (R153). -/
theorem rxByteWith_accept (p : Params) (b : Byte) (s : State) (h : s.rxState = .len)
    (h1 : p.rxMinLen ≤ b.toNat) (h2 : b.toNat ≤ p.rxMaxLen) :
    rxByteWith p b s
      = { s.bufWrite 1 b with rxLen := b, rxIdx := 2, rxState := .body }.rxRespond .progress := by
  have : ¬ (b.toNat > p.rxMaxLen ∨ b.toNat < p.rxMinLen) := by omega
  simp [rxByteWith, h, rxLength, this, State.store, State.storeIndex_len s h]

/-- RX_BYTE of a length byte out of range (R154). -/
theorem rxByteWith_dropLen (p : Params) (b : Byte) (s : State) (h : s.rxState = .len)
    (h1 : b.toNat > p.rxMaxLen ∨ b.toNat < p.rxMinLen) :
    rxByteWith p b s = s.toIdle.rxRespond .dropLen := by
  simp [rxByteWith, h, rxLength, h1]

/-- RX_BYTE of a body byte past the scratch capacity (R157). -/
theorem rxByteWith_dropOvf (p : Params) (b : Byte) (s : State) (h : s.rxState = .body)
    (h1 : s.overflows p) : rxByteWith p b s = s.toIdle.rxRespond .dropOvf := by
  simp [rxByteWith, h, rxBody, h1]

/-- RX_BYTE of the body byte that completes a frame (R156). -/
theorem rxByteWith_complete (p : Params) (b : Byte) (s : State) (h : s.rxState = .body)
    (h1 : ¬ s.overflows p) (h2 : s.completes) :
    rxByteWith p b s = dispatch p (s.frameWith b) (s.bufWrite s.rxIdx.toNat b).toIdle := by
  simp only [rxByteWith, h, rxBody, if_neg h1, if_pos h2, State.store, State.storeIndex_body s h]

/-- RX_BYTE of any other body byte (R155, R156). -/
theorem rxByteWith_progress (p : Params) (b : Byte) (s : State) (h : s.rxState = .body)
    (h1 : ¬ s.overflows p) (h2 : ¬ s.completes) :
    rxByteWith p b s
      = { s.bufWrite s.rxIdx.toNat b with rxIdx := BitVec.ofNat 7 (s.rxIdx.toNat + 1) }.rxRespond
          .progress := by
  simp only [rxByteWith, h, rxBody, if_neg h1, if_neg h2, State.store, State.storeIndex_body s h]

end Sys2Proof.Machine
end

