-- ==== Sys2Proof/Laws/Memory.lean ====
section
/-! SUPPORT. The laws of the scratch buffer: read after write, and that a write keeps the canonical form. -/

namespace Sys2Proof.Machine

@[simp] theorem Memory.find_nil (a : Nat) : Memory.find [] a = none := rfl

@[simp] theorem Memory.find_write_same (m : Memory) (a : Nat) (v : Byte) :
    (m.write a v).find a = some v := by
  induction m with
  | nil => simp [Memory.write, Memory.find]
  | cons c rest ih =>
    obtain ⟨k, w⟩ := c
    by_cases h1 : a < k
    · simp [Memory.write, Memory.find, h1]
    · by_cases h2 : a = k
      · simp [Memory.write, Memory.find, h2]
      · simp [Memory.write, Memory.find, h1, h2, Ne.symm h2, ih]

theorem Memory.find_write_ne (m : Memory) {a b : Nat} (v : Byte) (h : b ≠ a) :
    (m.write a v).find b = m.find b := by
  induction m with
  | nil => simp [Memory.write, Memory.find, Ne.symm h]
  | cons c rest ih =>
    obtain ⟨k, w⟩ := c
    by_cases h1 : a < k
    · simp [Memory.write, Memory.find, h1, Ne.symm h]
    · by_cases h2 : a = k
      · subst h2
        simp [Memory.write, Memory.find, Ne.symm h]
      · simp [Memory.write, Memory.find, h1, h2, ih]

/-- One read of one byte after one write (R27). -/
theorem Memory.find_write (m : Memory) (a b : Nat) (v : Byte) :
    (m.write a v).find b = if b = a then some v else m.find b := by
  split
  · next h => rw [h, Memory.find_write_same]
  · next h => exact Memory.find_write_ne m v h

/-- The entries of a write: the written one and old ones. -/
theorem Memory.mem_write {m : Memory} {a : Nat} {v : Byte} {c : Host.Cell}
    (h : c ∈ m.write a v) : c = (a, v) ∨ c ∈ m := by
  induction m with
  | nil => simpa [Memory.write] using h
  | cons d rest ih =>
    obtain ⟨k, w⟩ := d
    unfold Memory.write at h
    split at h
    · simpa using h
    · split at h
      · simp only [List.mem_cons] at h ⊢
        tauto
      · simp only [List.mem_cons] at h ⊢
        rcases h with h | h
        · tauto
        · have := ih h
          tauto

/-- A write at an index of the scratch keeps the canonical form. -/
theorem Memory.write_wf {m : Memory} {a : Nat} (v : Byte) (ha : a < Config.rxBufCap)
    (h : m.wf) : (m.write a v).wf := by
  refine ⟨?_, fun c hc => ?_⟩
  · induction m with
    | nil => simp [Memory.write]
    | cons d rest ih =>
      obtain ⟨k, w⟩ := d
      have hp := List.pairwise_cons.mp h.1
      unfold Memory.write
      split
      · next h1 =>
        refine List.pairwise_cons.mpr ⟨fun c hc => ?_, h.1⟩
        rcases List.mem_cons.mp hc with rfl | hc
        · exact h1
        · exact lt_trans h1 (hp.1 c hc)
      · split
        · next h2 =>
          subst h2
          exact List.pairwise_cons.mpr hp
        · next h1 h2 =>
          refine List.pairwise_cons.mpr ⟨fun c hc => ?_, ?_⟩
          · rcases Memory.mem_write hc with rfl | hc
            · exact lt_of_le_of_ne (Nat.le_of_not_lt h1) (Ne.symm h2)
            · exact hp.1 c hc
          · exact ih ⟨hp.2, fun c hc => h.2 c (List.mem_cons_of_mem _ hc)⟩
  · rcases Memory.mem_write hc with rfl | hc
    · exact ha
    · exact h.2 c hc

/-- The scratch right after reset has the canonical form. -/
theorem Memory.reset_wf : State.reset.rxBuf.wf := by decide

/-- `BufRead` after `BufWrite`. -/
theorem State.bufRead_bufWrite (s : State) (a b : Nat) (v : Byte) :
    (s.bufWrite a v).bufRead b = if b = a then v else s.bufRead b := by
  unfold State.bufRead State.bufWrite
  rw [Memory.find_write]
  split <;> rfl

/-- A written index reads as the byte written. -/
theorem State.bufRead_of_find {s : State} {a : Nat} {v : Byte} (h : s.rxBuf.find a = some v) :
    s.bufRead a = v := by
  simp [State.bufRead, h]

end Sys2Proof.Machine
end

