-- ==== Sys2Proof/Laws/Packer.lean ====
section
/-! SUPPORT. The bits of the 176-bit stream: of packed channels, of bytes, and of the bytes of a stream
(spec 20_memory.md R42, 41_frame_codec.md R110, R111). -/

namespace Sys2Proof

theorem streamField_getLsbD {f : Nat} (v : BitVec f) (n k : Nat) (hf : 0 < f) (hk : k < 176) :
    (streamField v (f * n)).getLsbD k = (decide (k / f = n) && v.getLsbD (k % f)) := by
  have e : k = f * (k / f) + k % f := (Nat.div_add_mod k f).symm
  have hm : k % f < f := Nat.mod_lt _ hf
  simp only [streamField, BitVec.getLsbD_shiftLeft, hk, decide_true, Bool.true_and,
    BitVec.getLsbD_setWidth]
  rcases lt_trichotomy (k / f) n with h | h | h
  · have : k < f * n := by
      have := Nat.mul_le_mul_left f (Nat.succ_le_of_lt h)
      rw [Nat.mul_succ] at this
      omega
    simp [this, Nat.ne_of_lt h]
  · subst h
    have h1 : ¬ k < f * (k / f) := by omega
    have h2 : k - f * (k / f) = k % f := by omega
    simp [h1, h2]; intro _; omega
  · have h1 : f ≤ k - f * n := by
      have := Nat.mul_le_mul_left f (Nat.succ_le_of_lt h)
      rw [Nat.mul_succ] at this
      omega
    simp [Nat.ne_of_gt h, BitVec.getLsbD_of_ge v _ h1]

theorem foldFields_getLsbD {α : Type} {f : Nat} (g : α → BitVec f) (l : List α) (n k : Nat)
    (acc : BitVec 176) (hf : 0 < f) (hk : k < 176) :
    ((l.zipIdx n).foldl (fun acc c => acc ||| streamField (g c.1) (f * c.2)) acc).getLsbD k
      = (acc.getLsbD k
        || (decide (n ≤ k / f)
          && ((l[k / f - n]?).map fun c => (g c).getLsbD (k % f)).getD false)) := by
  induction l generalizing n acc with
  | nil => simp
  | cons c l ih =>
    rw [List.zipIdx_cons, List.foldl_cons, ih, BitVec.getLsbD_or, streamField_getLsbD _ _ _ hf hk]
    rcases lt_trichotomy (k / f) n with h | h | h
    · simp [Nat.ne_of_lt h, Nat.not_le_of_lt h, show ¬ n + 1 ≤ k / f by omega]
    · simp [h]
    · have e : k / f - n = (k / f - (n + 1)) + 1 := by omega
      rw [e, List.getElem?_cons_succ]
      simp [Nat.ne_of_gt h, show n ≤ k / f by omega, show n + 1 ≤ k / f by omega]

theorem packStream_getLsbD {w : Nat} (ch : Vector (BitVec w) 16) (i j : Nat) (hi : i < 16)
    (hj : j < 11) : (packStream ch).getLsbD (11 * i + j) = ch[i].getLsbD j := by
  have h1 : (11 * i + j) / 11 = i := by omega
  have h2 : (11 * i + j) % 11 = j := by omega
  have := foldFields_getLsbD (fun c : BitVec w => c.setWidth 11) ch.toList 0 (11 * i + j) 0
    (by omega) (by omega)
  rw [h1, h2] at this
  simpa [packStream, hi, hj] using this

theorem byteStream_getLsbD (pk : Vector Byte 22) (k : Nat) (hk : k < 176) :
    (byteStream pk).getLsbD k = (pk.toList.getD (k / 8) 0).getLsbD (k % 8) := by
  have := foldFields_getLsbD (fun b : Byte => b) pk.toList 0 k 0 (by omega) hk
  have h : k / 8 < 22 := by omega
  simpa [byteStream, List.getD, h] using this

theorem streamBytes_toList (s : BitVec 176) :
    (streamBytes s).toList = (List.range 22).map fun k => s.extractLsb' (8 * k) 8 := rfl

theorem streamBytes_getLsbD (s : BitVec 176) (k : Nat) (hk : k < 176) :
    ((streamBytes s).toList.getD (k / 8) 0).getLsbD (k % 8) = s.getLsbD k := by
  have h : k / 8 < 22 := by omega
  have h1 : 8 * (k / 8) + k % 8 = k := by omega
  have h2 : k % 8 < 8 := by omega
  simp [streamBytes_toList, List.getD, h, h1, h2]

theorem streamChannels_getElem (s : BitVec 176) (i : Nat) (hi : i < 16) :
    (streamChannels s)[i] = s.extractLsb' (11 * i) 11 := by
  simp [streamChannels]

end Sys2Proof
end

