-- ==== Sys2Proof/Laws/PerInstr.lean ====
section
/-! SUPPORT. Statements made per instruction: an instruction's encoding is a word of its opcode-table row. -/

namespace Sys2Proof.Laws

/-- The encoding of a well-formed instruction matches its row of the opcode table: its table bits under
the row's mask are the row's pattern (spec 30_encoding.md R63, R74). -/
def EncodesItsRow.Statement (i : Instr) : Prop :=
  i.WellFormed → (encode i).tableBits &&& i.row.mask = i.row.pattern

/-- The type byte that selects a frame row with a code of its own. -/
theorem type_of_row (f : List Byte) (t : FrameType) (h : FrameType.ofByte (frameType f) = t) :
    (t = .rcChannels → frameType f = 0x16) ∧ (t = .mspCommand → frameType f = 0x7A)
      ∧ (t = .linkStatistics → frameType f = 0x14) ∧ (t = .batterySensor → frameType f = 0x08)
      ∧ (t = .attitude → frameType f = 0x1E) ∧ (t = .flightMode → frameType f = 0x21) := by
  subst h
  unfold FrameType.ofByte
  refine ⟨?_, ?_, ?_, ?_, ?_, ?_⟩ <;> (repeat' split) <;> simp_all [Config.typeRcChannels,
    Config.typeMspCommand, Config.typeLinkStatistics, Config.typeBatterySensor,
    Config.typeAttitude, Config.typeFlightMode]

/-- The low four bits of a composed request word are its operation code. -/
theorem requestWord_and_15 (op : BitVec 4) (b : Byte) (n : BitVec 6) :
    (requestWord op b n).toNat &&& 0xF = op.toNat := by
  have h := congrArg BitVec.toNat (requestWord_op op b n)
  simp only [BitVec.extractLsb'_toNat, Nat.shiftRight_zero] at h
  rw [← h]
  exact Nat.and_two_pow_sub_one_eq_mod _ 4

theorem EncodesItsRow.nop : EncodesItsRow.Statement .nop := fun _ => by decide
theorem EncodesItsRow.crcInit : EncodesItsRow.Statement .crcInit := fun _ => by decide
theorem EncodesItsRow.crcByte (b : Byte) : EncodesItsRow.Statement (.crcByte b) :=
  fun _ => requestWord_and_15 2 b 0
theorem EncodesItsRow.pack (ch : Vector Lane 16) : EncodesItsRow.Statement (.pack ch) :=
  fun _ => requestWord_and_15 3 0 0
theorem EncodesItsRow.unpack (pk : Vector Byte 22) : EncodesItsRow.Statement (.unpack pk) :=
  fun _ => requestWord_and_15 4 0 0
theorem EncodesItsRow.encRc (ch : Vector Lane 16) : EncodesItsRow.Statement (.encRc ch) :=
  fun _ => requestWord_and_15 5 0 0
theorem EncodesItsRow.encCmd (fn : Byte) (n : BitVec 6) (pay : Vector Byte Config.cmdMaxPayload) :
    EncodesItsRow.Statement (.encCmd fn n pay) :=
  fun _ => requestWord_and_15 6 fn n
theorem EncodesItsRow.rxByte (b : Byte) : EncodesItsRow.Statement (.rxByte b) :=
  fun _ => requestWord_and_15 7 b 0
theorem EncodesItsRow.reserved (op : BitVec 3) : EncodesItsRow.Statement (.reserved op) := by
  intro _
  revert op
  decide
theorem EncodesItsRow.frameRcChannels (f : List Byte) :
    EncodesItsRow.Statement (.frameRcChannels f) := fun h => by
  have := (type_of_row f _ (of_decide_eq_true h).2).1 rfl
  simp [encode, Encoded.tableBits, Instr.row, this]
theorem EncodesItsRow.frameMspCommand (f : List Byte) :
    EncodesItsRow.Statement (.frameMspCommand f) := fun h => by
  have := (type_of_row f _ (of_decide_eq_true h).2).2.1 rfl
  simp [encode, Encoded.tableBits, Instr.row, this]
theorem EncodesItsRow.frameLinkStatistics (f : List Byte) :
    EncodesItsRow.Statement (.frameLinkStatistics f) := fun h => by
  have := (type_of_row f _ (of_decide_eq_true h).2).2.2.1 rfl
  simp [encode, Encoded.tableBits, Instr.row, this]
theorem EncodesItsRow.frameBatterySensor (f : List Byte) :
    EncodesItsRow.Statement (.frameBatterySensor f) := fun h => by
  have := (type_of_row f _ (of_decide_eq_true h).2).2.2.2.1 rfl
  simp [encode, Encoded.tableBits, Instr.row, this]
theorem EncodesItsRow.frameAttitude (f : List Byte) :
    EncodesItsRow.Statement (.frameAttitude f) := fun h => by
  have := (type_of_row f _ (of_decide_eq_true h).2).2.2.2.2.1 rfl
  simp [encode, Encoded.tableBits, Instr.row, this]
theorem EncodesItsRow.frameFlightMode (f : List Byte) :
    EncodesItsRow.Statement (.frameFlightMode f) := fun h => by
  have := (type_of_row f _ (of_decide_eq_true h).2).2.2.2.2.2 rfl
  simp [encode, Encoded.tableBits, Instr.row, this]
theorem EncodesItsRow.frameUnknown (f : List Byte) :
    EncodesItsRow.Statement (.frameUnknown f) := fun _ => by
  simp [encode, Encoded.tableBits, Instr.row]

end Sys2Proof.Laws
end

