-- ==== Sys2Proof/Tests/Slice0.lean ====
section
/-! SUPPORT. The model's own tests. Expected results come from spec/95_test_vectors.md (named in each
docstring) or from the encoding tables of 30_encoding.md, never from the model. The last section has one
witness for each statement with hypotheses. -/

namespace Sys2Proof.Tests

open Sys2Proof Sys2Proof.Machine

/-! ### Helpers -/

/-- Configuration T0 of 95_test_vectors.md: the values of R4, test addresses and the T-CRSF decoders. -/
def t0 : Params :=
  { Config.hw with
    cmdDest := 0xC8
    cmdOrigin := 0xEA
    rxCrcCheck := false
    decLs := fun p =>
      if p.length < 10 then none
      else some ⟨-(p.getD 0 0).setWidth 32, -(p.getD 1 0).setWidth 32, (p.getD 2 0).setWidth 32,
        (p.getD 3 0).signExtend 32, (p.getD 6 0).setWidth 32⟩
    decBat := fun p =>
      if p.length < 8 then none
      else some ⟨BitVec.ofNat 32 (100 * ((p.getD 0 0).toNat * 256 + (p.getD 1 0).toNat)),
        BitVec.ofNat 32 (100 * ((p.getD 2 0).toNat * 256 + (p.getD 3 0).toNat)),
        BitVec.ofNat 32 ((p.getD 4 0).toNat * 65536 + (p.getD 5 0).toNat * 256 + (p.getD 6 0).toNat)⟩
    decAtt := fun p =>
      if p.length < 6 then none
      else some ⟨(p.getD 0 0 ++ p.getD 1 0).signExtend 32, (p.getD 2 0 ++ p.getD 3 0).signExtend 32,
        (p.getD 4 0 ++ p.getD 5 0).signExtend 32⟩
    decFm := fun p => p.head?.map fun b => b.setWidth 32 }

/-- T-NONE: T0 with no decoder giving a result. -/
def tNone : Params :=
  { t0 with decLs := fun _ => none, decBat := fun _ => none, decAtt := fun _ => none, decFm := fun _ => none }

/-- T0 with RX_CRC_CHECK. -/
def tCheck : Params := { t0 with rxCrcCheck := true }

/-- T-OVF: T0 with RX_BUF_CAP = 10. -/
def tOvf : Params := { t0 with rxBufCap := 10 }

/-- The framer in a given state over a scratch whose first indices hold `buf`. -/
def framer (x : RxState) (len : Byte) (idx : BitVec 7) (buf : List Byte) : State :=
  { State.reset.bufFill 0 buf with rxState := x, rxLen := len, rxIdx := idx }

/-- The framer before the last byte of `f`. -/
def beforeLast (f : List Byte) : State :=
  framer .body (byteAt f 1) (BitVec.ofNat 7 (f.length - 1)) f.dropLast

/-- RX_BYTE of the last byte of `f`, the earlier bytes being stored. -/
def lastByte (p : Params) (f : List Byte) : State := rxByteWith p (f.getLastD 0) (beforeLast f)

/-- The event of the last response: kind, values, type, len, crc_ok. -/
def eventOf (s : State) :
    Option (EventKind × List Int × List Byte × Bool) :=
  (s.response.bind Response.ev).map fun e =>
    (e.kind, [e.value1.toInt, e.value2.toInt, e.value3.toInt, e.value4.toInt, e.value5.toInt],
      [e.type, e.len], e.crcOk)

/-- The rx_status of the last response. -/
def rxStatusOf (s : State) : Option RxStatus := s.response.map Response.rxStatus

/-- `out` after one instruction from reset. -/
def outOf (i : Instr) : Option (List Byte) :=
  ((after (exec i State.reset)).bind State.response).map Response.out

/-- `status` after one instruction from reset. -/
def statusOf (i : Instr) : Option Status :=
  ((after (exec i State.reset)).bind State.response).map Response.status

/-- A state with one input to come. -/
def given (s : State) (x : Input) : State := { s with inbox := [x] }

/-- A PAY bus of zeros. -/
def noPay : Vector Byte 57 := Vector.replicate 57 0

/-! ### Well-formedness: an ill-formed term for each check -/

theorem test_wf_no_header : (Instr.frameUnknown [0xC8]).wellFormed = false := by decide
theorem test_wf_bad_sync : (Instr.frameUnknown [0xC7, 0x02, 0x00, 0x00]).wellFormed = false := by decide
theorem test_wf_length_below_two : (Instr.frameUnknown [0xC8, 0x01, 0x00]).wellFormed = false := by decide
theorem test_wf_length_above_62 :
    (Instr.frameUnknown ([0xC8, 0x3F] ++ List.replicate 63 0)).wellFormed = false := by decide
theorem test_wf_frame_too_short : (Instr.frameUnknown [0xC8, 0x02, 0x00]).wellFormed = false := by decide
theorem test_wf_frame_too_long :
    (Instr.frameUnknown [0xC8, 0x02, 0x00, 0x00, 0x00]).wellFormed = false := by decide
theorem test_wf_rc_channels_of_another_type :
    (Instr.frameRcChannels [0xC8, 0x02, 0x08, 0x29]).wellFormed = false := by decide
theorem test_wf_msp_command_of_another_type :
    (Instr.frameMspCommand [0xC8, 0x02, 0x08, 0x29]).wellFormed = false := by decide
theorem test_wf_link_statistics_of_another_type :
    (Instr.frameLinkStatistics [0xC8, 0x02, 0x08, 0x29]).wellFormed = false := by decide
theorem test_wf_battery_sensor_of_another_type :
    (Instr.frameBatterySensor [0xC8, 0x02, 0x16, 0xD3]).wellFormed = false := by decide
theorem test_wf_attitude_of_another_type :
    (Instr.frameAttitude [0xC8, 0x02, 0x08, 0x29]).wellFormed = false := by decide
theorem test_wf_flight_mode_of_another_type :
    (Instr.frameFlightMode [0xC8, 0x02, 0x08, 0x29]).wellFormed = false := by decide
theorem test_wf_unknown_of_another_type :
    (Instr.frameUnknown [0xC8, 0x02, 0x08, 0x29]).wellFormed = false := by decide

/-! ### Decoding: words written out from the encoding tables (R60, R63, R85; R70, R74) -/

theorem test_decode_nop : decodeRequest (Request.ofWord 0b000000_00000000_0000) = .nop := by decide
theorem test_decode_nop_fields_ignored : decodeRequest (Request.ofWord 0x3FFF0) = .nop := by decide
theorem test_decode_crcInit : decodeRequest (Request.ofWord 0b000000_00000000_0001) = .crcInit := by decide
theorem test_decode_crcInit_fields_ignored : decodeRequest (Request.ofWord 0x3FFF1) = .crcInit := by decide
theorem test_decode_crcByte :
    decodeRequest (Request.ofWord 0b000000_00110001_0010) = .crcByte 0x31 := by decide
theorem test_decode_pack :
    decodeRequest { Request.ofWord 0x00AB3 with ch := Vector.replicate 16 992 }
      = .pack (Vector.replicate 16 992) := by decide
theorem test_decode_unpack :
    decodeRequest { Request.ofWord 0b000000_00000000_0100 with pk := Vector.replicate 22 7 }
      = .unpack (Vector.replicate 22 7) := by decide
theorem test_decode_encRc :
    decodeRequest { Request.ofWord 0b000000_00000000_0101 with ch := Vector.replicate 16 992 }
      = .encRc (Vector.replicate 16 992) := by decide
theorem test_decode_encCmd :
    decodeRequest { Request.ofWord 0b000100_00101101_0110 with pay := Vector.replicate 57 9 }
      = .encCmd 0x2D 4 (Vector.replicate 57 9) := by decide
theorem test_decode_encCmd_largest_count :
    decodeRequest (Request.ofWord 0x3F2D6) = .encCmd 0x2D 63 noPay := by decide
theorem test_decode_rxByte :
    decodeRequest (Request.ofWord 0b000000_11001000_0111) = .rxByte 0xC8 := by decide
theorem test_decode_rxByte_count_ignored : decodeRequest (Request.ofWord 0x05167) = .rxByte 0x16 := by decide
theorem test_decode_reserved_first : decodeRequest (Request.ofWord 0x00008) = .reserved 0 := by decide
theorem test_decode_reserved_last : decodeRequest (Request.ofWord 0x3FFFF) = .reserved 7 := by decide
theorem test_decode_frame_rc_channels :
    decodeFrame [0xC8, 0x02, 0x16, 0xD3] = .ok (.frameRcChannels [0xC8, 0x02, 0x16, 0xD3]) := by rfl
theorem test_decode_frame_msp_command :
    decodeFrame [0xC8, 0x02, 0x7A, 0x3D] = .ok (.frameMspCommand [0xC8, 0x02, 0x7A, 0x3D]) := by rfl
theorem test_decode_frame_link_statistics :
    decodeFrame [0xC8, 0x02, 0x14, 0xAC] = .ok (.frameLinkStatistics [0xC8, 0x02, 0x14, 0xAC]) := by rfl
theorem test_decode_frame_battery_sensor :
    decodeFrame [0xC8, 0x02, 0x08, 0x29] = .ok (.frameBatterySensor [0xC8, 0x02, 0x08, 0x29]) := by rfl
theorem test_decode_frame_attitude :
    decodeFrame [0xC8, 0x02, 0x1E, 0xFA] = .ok (.frameAttitude [0xC8, 0x02, 0x1E, 0xFA]) := by rfl
theorem test_decode_frame_flight_mode :
    decodeFrame [0xC8, 0x02, 0x21, 0x71] = .ok (.frameFlightMode [0xC8, 0x02, 0x21, 0x71]) := by rfl
theorem test_decode_frame_unknown :
    decodeFrame [0xC8, 0x02, 0x00, 0x00] = .ok (.frameUnknown [0xC8, 0x02, 0x00, 0x00]) := by rfl
theorem test_decode_frame_rejects_no_header : decodeFrame [0xC8] = .error .noHeader := by rfl
theorem test_decode_frame_rejects_sync : decodeFrame [0xC7, 0x02, 0x16, 0xD3] = .error .badSync := by rfl
theorem test_decode_frame_rejects_length_one : decodeFrame [0xC8, 0x01, 0x16] = .error .badLength := by rfl
theorem test_decode_frame_rejects_length_63 :
    decodeFrame ([0xC8, 0x3F] ++ List.replicate 63 0) = .error .badLength := by rfl
theorem test_decode_frame_rejects_a_short_frame :
    decodeFrame [0xC8, 0x03, 0x16, 0xD3] = .error .lengthMismatch := by rfl
theorem test_encode_encCmd :
    encode (.encCmd 0xF5 1 noPay) = .request (Request.ofWord 0x01F56) := by decide
theorem test_encode_rxByte : encode (.rxByte 0x79) = .request (Request.ofWord 0x00797) := by decide
theorem test_table_word_request : decodeTableWord 24 0x00C87 = some (.rxByte 0xC8) := by decide
theorem test_table_word_frame :
    decodeTableWord 8 0x16 = some (.frameRcChannels [0xC8, 0x02, 0x16, 0xD3]) := by decide
theorem test_fetch_word_request_runs :
    step (State.reset.withFetchWord 24 0x00012) = exec (.crcByte 0x01) State.reset := by rfl
theorem test_fetch_word_frame_runs :
    step (State.reset.withFetchWord 8 0x16)
      = exec (.frameRcChannels [0xC8, 0x02, 0x16, 0xD3])
          { framer .idle 2 0 [0xC8, 0x02, 0x16, 0xD3] with inbox := [] } := by rfl

/-! ### One step each, on vectors of 95_test_vectors.md -/

/-- L2-8. -/
theorem test_nop : after (exec .nop State.reset)
    = some { State.reset with response := some ⟨.ok, [], none, .none, none⟩ } := by decide
/-- L2-8. -/
theorem test_reserved : after (exec (.reserved 1) State.reset)
    = some { State.reset with response := some ⟨.errIllegal, [], none, .none, none⟩ } := by decide
/-- L2-1: from crc_acc = BC. -/
theorem test_crcInit :
    (after (exec .crcInit { State.reset with crcAcc := 0xBC })).map State.crcAcc = some 0 := by decide
/-- L2-1: crc_step(0x5A, 0x00) = 99. -/
theorem test_crcByte :
    (after (exec (.crcByte 0x00) { State.reset with crcAcc := 0x5A })).map State.crcAcc = some 0x99 := by
  decide
/-- L2-1: the check value of "123456789". -/
theorem test_crc8_check_value :
    crc8 [0x31, 0x32, 0x33, 0x34, 0x35, 0x36, 0x37, 0x38, 0x39] = 0xBC := by decide +kernel
/-- L2-2: ch i = i. -/
theorem test_pack_counting :
    outOf (.pack #v[0, 1, 2, 3, 4, 5, 6, 7, 8, 9, 10, 11, 12, 13, 14, 15])
      = some [0x00, 0x08, 0x80, 0x00, 0x06, 0x40, 0x80, 0x02, 0x18, 0xE0, 0x00, 0x08, 0x48, 0x80, 0x02,
        0x16, 0xC0, 0x80, 0x06, 0x38, 0xE0, 0x01] := by decide +kernel
/-- L2-2: a lane is truncated to 11 bits. -/
theorem test_pack_truncates :
    outOf (.pack #v[0xFFFF, 0, 0, 0, 0, 0, 0, 0, 0, 0, 0, 0, 0, 0, 0, 0])
      = some ([0xFF, 0x07] ++ List.replicate 20 0) := by decide +kernel
/-- L2-2: PK = 00 F8 then zeros gives ch1 = 31 and the rest 0. -/
theorem test_unpack_second_channel :
    ((after (exec (.unpack #v[0x00, 0xF8, 0, 0, 0, 0, 0, 0, 0, 0, 0, 0, 0, 0, 0, 0, 0, 0, 0, 0, 0, 0])
      State.reset)).bind State.response).map Response.ch
      = some (some #v[0, 31, 0, 0, 0, 0, 0, 0, 0, 0, 0, 0, 0, 0, 0, 0]) := by decide +kernel
/-- L2-2: PK = 21 zeros then 80 gives ch15 = 1024. -/
theorem test_unpack_last_channel :
    ((after (exec (.unpack #v[0, 0, 0, 0, 0, 0, 0, 0, 0, 0, 0, 0, 0, 0, 0, 0, 0, 0, 0, 0, 0, 0x80])
      State.reset)).bind State.response).map Response.ch
      = some (some #v[0, 0, 0, 0, 0, 0, 0, 0, 0, 0, 0, 0, 0, 0, 0, 1024]) := by decide +kernel
/-- L1-8, scenario A. -/
theorem test_encRc_scenario_a :
    outOf (.encRc #v[1401, 992, 1483, 992, 1811, 992, 992, 992, 992, 992, 992, 992, 992, 992, 992, 992])
      = some [0xC8, 0x18, 0x16, 0x79, 0x05, 0xDF, 0x72, 0xC1, 0x37, 0x71, 0xF0, 0x81, 0x0F, 0x7C, 0xE0,
        0x03, 0x1F, 0xF8, 0xC0, 0x07, 0x3E, 0xF0, 0x81, 0x0F, 0x7C, 0x56] := by decide +kernel
/-- L2-4, in T0: ENC_CMD 0xFF, [0xC8]. -/
theorem test_encCmd_frame :
    ((encCmdWith t0 0xFF 1 (noPay.set 0 0xC8) State.reset).response).map Response.out
      = some [0xC8, 0x07, 0x7A, 0xC8, 0xEA, 0xFF, 0x01, 0xC8, 0x51] := by decide +kernel
/-- L2-4: N = 58. -/
theorem test_encCmd_precondition : after (exec (.encCmd 0x2D 58 noPay) State.reset)
    = some { State.reset with response := some ⟨.errPrecond, [], none, .none, none⟩ } := by decide +kernel
/-- L2-5, T1, bytes 0 and 1. -/
theorem test_rxByte_sync : after (exec (.rxByte 0xC8) State.reset)
    = some { framer .len 0 1 [0xC8] with response := some ⟨.ok, [], none, .progress, none⟩ } := by
  decide +kernel
/-- L2-5, T2, byte 1: the length byte 0xC8 is dropped. -/
theorem test_rxByte_length_sync_is_dropped :
    after (exec (.rxByte 0xC8) (framer .len 0 1 [0xC8]))
      = some { framer .idle 0 0 [0xC8] with response := some ⟨.ok, [], none, .dropLen, none⟩ } := by
  decide +kernel
/-- L2-5, T13, byte 10, in T-OVF. -/
theorem test_rxByte_overflow :
    rxStatusOf (rxByteWith tOvf 0 (framer .body 12 10 [0xC8, 0x0C, 0x16, 0, 0, 0, 0, 0, 0, 0]))
      = some .dropOvf := by decide +kernel
/-- L2-5, T5, byte 63: a 64-byte frame fills the scratch and is dispatched. -/
theorem test_rxByte_longest_frame :
    eventOf (lastByte t0 ([0xC8, 0x3E] ++ List.replicate 62 0))
      = some (.unknown, [0, 62, 0, 0, 0], [0x00, 62], true) := by decide +kernel
/-- L2-5, T10: a wrong checksum with RX_CRC_CHECK. -/
theorem test_wrong_checksum_checked :
    rxStatusOf (lastByte tCheck [0xC8, 0x02, 0x16, 0xD4]) = some .dropCrc := by decide +kernel
/-- R161, as in L2-5, T9: a wrong checksum without RX_CRC_CHECK. -/
theorem test_wrong_checksum_unchecked :
    eventOf (lastByte t0 [0xC8, 0x02, 0x16, 0xD4])
      = some (.unknown, [22, 2, 0, 0, 0], [0x16, 2], false) := by decide +kernel
/-- L2-6, the frame C8 0C 14 3C 3C 64 05 00 04 02 46 64 08 39. -/
theorem test_link_statistics_up :
    eventOf (lastByte t0 [0xC8, 0x0C, 0x14, 0x3C, 0x3C, 0x64, 0x05, 0x00, 0x04, 0x02, 0x46, 0x64, 0x08, 0x39])
        = some (.linkStats, [-60, -60, 100, 5, 2], [0x14, 12], true)
      ∧ (lastByte t0 [0xC8, 0x0C, 0x14, 0x3C, 0x3C, 0x64, 0x05, 0x00, 0x04, 0x02, 0x46, 0x64, 0x08, 0x39]).linkOk
        = true := by
  decide +kernel
/-- L2-6, the frame C8 0C 14 64 65 64 05 00 04 02 46 64 08 3B. -/
theorem test_link_statistics_rssi_bound :
    eventOf (lastByte t0 [0xC8, 0x0C, 0x14, 0x64, 0x65, 0x64, 0x05, 0x00, 0x04, 0x02, 0x46, 0x64, 0x08, 0x3B])
        = some (.linkStats, [-100, -101, 100, 5, 2], [0x14, 12], true)
      ∧ (lastByte t0 [0xC8, 0x0C, 0x14, 0x64, 0x65, 0x64, 0x05, 0x00, 0x04, 0x02, 0x46, 0x64, 0x08, 0x3B]).linkOk
        = false := by
  decide +kernel
/-- L2-6, the frame C8 05 14 3C 3C 64 67. -/
theorem test_link_statistics_undecoded :
    eventOf (lastByte t0 [0xC8, 0x05, 0x14, 0x3C, 0x3C, 0x64, 0x67])
        = some (.unknown, [20, 5, 0, 0, 0], [0x14, 5], true)
      ∧ (lastByte t0 [0xC8, 0x05, 0x14, 0x3C, 0x3C, 0x64, 0x67]).linkOk
        = false := by
  decide +kernel
/-- L2-6, the frame C8 0A 08 00 A8 00 0F 00 01 F4 50 17. -/
theorem test_battery :
    eventOf (lastByte t0 [0xC8, 0x0A, 0x08, 0x00, 0xA8, 0x00, 0x0F, 0x00, 0x01, 0xF4, 0x50, 0x17])
        = some (.battery, [16800, 1500, 500, 0, 0], [0x08, 10], true)
      ∧ (lastByte t0 [0xC8, 0x0A, 0x08, 0x00, 0xA8, 0x00, 0x0F, 0x00, 0x01, 0xF4, 0x50, 0x17]).linkOk
        = false := by
  decide +kernel
/-- L2-6, the frame C8 0A 08 00 A8 00 0F 00 01 F4 50 17. -/
theorem test_battery_undecoded :
    eventOf (lastByte tNone [0xC8, 0x0A, 0x08, 0x00, 0xA8, 0x00, 0x0F, 0x00, 0x01, 0xF4, 0x50, 0x17])
        = some (.unknown, [8, 10, 0, 0, 0], [0x08, 10], true)
      ∧ (lastByte tNone [0xC8, 0x0A, 0x08, 0x00, 0xA8, 0x00, 0x0F, 0x00, 0x01, 0xF4, 0x50, 0x17]).linkOk
        = false := by
  decide +kernel
/-- L2-6, the frame C8 08 1E 0B B8 F4 48 00 00 AC. -/
theorem test_attitude :
    eventOf (lastByte t0 [0xC8, 0x08, 0x1E, 0x0B, 0xB8, 0xF4, 0x48, 0x00, 0x00, 0xAC])
        = some (.attitude, [3000, -3000, 0, 0, 0], [0x1E, 8], true)
      ∧ (lastByte t0 [0xC8, 0x08, 0x1E, 0x0B, 0xB8, 0xF4, 0x48, 0x00, 0x00, 0xAC]).linkOk
        = false := by
  decide +kernel
/-- L2-6, the frame C8 08 1E 0B B8 F4 48 00 00 AC. -/
theorem test_attitude_undecoded :
    eventOf (lastByte tNone [0xC8, 0x08, 0x1E, 0x0B, 0xB8, 0xF4, 0x48, 0x00, 0x00, 0xAC])
        = some (.unknown, [30, 8, 0, 0, 0], [0x1E, 8], true)
      ∧ (lastByte tNone [0xC8, 0x08, 0x1E, 0x0B, 0xB8, 0xF4, 0x48, 0x00, 0x00, 0xAC]).linkOk
        = false := by
  decide +kernel
/-- L2-6, the frame C8 07 21 41 43 52 4F 00 80. -/
theorem test_flight_mode :
    eventOf (lastByte t0 [0xC8, 0x07, 0x21, 0x41, 0x43, 0x52, 0x4F, 0x00, 0x80])
        = some (.flightMode, [65, 0, 0, 0, 0], [0x21, 7], true)
      ∧ (lastByte t0 [0xC8, 0x07, 0x21, 0x41, 0x43, 0x52, 0x4F, 0x00, 0x80]).linkOk
        = false := by
  decide +kernel
/-- L2-6, the frame C8 07 21 41 43 52 4F 00 80. -/
theorem test_flight_mode_undecoded :
    eventOf (lastByte tNone [0xC8, 0x07, 0x21, 0x41, 0x43, 0x52, 0x4F, 0x00, 0x80])
        = some (.unknown, [33, 7, 0, 0, 0], [0x21, 7], true)
      ∧ (lastByte tNone [0xC8, 0x07, 0x21, 0x41, 0x43, 0x52, 0x4F, 0x00, 0x80]).linkOk
        = false := by
  decide +kernel
/-- L2-6, the frame C8 04 29 01 02 23. -/
theorem test_frame_unknown :
    eventOf (lastByte t0 [0xC8, 0x04, 0x29, 0x01, 0x02, 0x23])
        = some (.unknown, [41, 4, 0, 0, 0], [0x29, 4], true)
      ∧ (lastByte t0 [0xC8, 0x04, 0x29, 0x01, 0x02, 0x23]).linkOk
        = false := by
  decide +kernel
/-- L1-15, the rows at the bounds of the link flag: (lq, rssi1, rssi2). -/
theorem test_link_flag_bounds :
    linkFlag ⟨-99, -120, 51, 0, 0⟩ = true ∧ linkFlag ⟨-60, -60, 50, 0, 0⟩ = false
      ∧ linkFlag ⟨-100, -100, 100, 0, 0⟩ = false ∧ linkFlag ⟨-100, -99, 255, 0, 0⟩ = true := by
  decide +kernel
/-- L2-7, all eight rows. -/
theorem test_gate_rows :
    [(false, false, false), (false, false, true), (false, true, false), (false, true, true),
      (true, false, false), (true, false, true), (true, true, false), (true, true, true)].map
        (fun x => gate 0xCAFE0001 x.1 x.2.1 x.2.2)
      = [0, 0, 0, 0, 0, 0xCAFE0001, 0xCAFE0001, 0xCAFE0001] := by decide
/-- L2-5, T12: reset during a partial frame. -/
theorem test_reset_discards_a_partial_frame :
    after (step (given (framer .body 5 3 [0xC8, 0x05, 0x14]) .reset))
      = some { State.reset with rxDraw := 1 } := by decide +kernel
/-- R231: right after reset only armed with override passes. -/
theorem test_gate_after_reset :
    ({ State.reset with ports := ⟨true, true, 7⟩ } : State).gateOut = 7
      ∧ ({ State.reset with ports := ⟨true, false, 7⟩ } : State).gateOut = 0 := by decide

/-! ### Witnesses: a concrete state and operands that meet the hypotheses of each statement -/

/-- The wire frame of type 0x14 of L2-6, row 1. -/
def linkFrame : List Byte :=
  [0xC8, 0x0C, 0x14, 0x3C, 0x3C, 0x64, 0x05, 0x00, 0x04, 0x02, 0x46, 0x64, 0x08, 0x39]

/-- The battery frame of L2-6. -/
def batteryFrame : List Byte := [0xC8, 0x0A, 0x08, 0x00, 0xA8, 0x00, 0x0F, 0x00, 0x01, 0xF4, 0x50, 0x17]

/-- The attitude frame of L2-6. -/
def attitudeFrame : List Byte := [0xC8, 0x08, 0x1E, 0x0B, 0xB8, 0xF4, 0x48, 0x00, 0x00, 0xAC]

/-- The flight-mode frame of L2-6. -/
def modeFrame : List Byte := [0xC8, 0x07, 0x21, 0x41, 0x43, 0x52, 0x4F, 0x00, 0x80]

theorem witness_ResetTransitionSetsEveryField :
    (given (framer .body 5 3 [0xC8, 0x05, 0x14]) .reset).inbox = .reset :: [] := rfl

theorem witness_ScratchAfterResetIsAFreeDraw :
    (given State.reset .reset).inbox = .reset :: [] := rfl

theorem witness_ResetDiscardsThePartialFrameAndClosesTheGate :
    (given { framer .len 0 1 [0xC8] with ports := ⟨true, true, 7⟩ } .reset).inbox = .reset :: []
      ∧ (given { framer .len 0 1 [0xC8] with ports := ⟨true, false, 7⟩ } .reset).inbox = .reset :: [] :=
  ⟨rfl, rfl⟩

theorem witness_StepRunsTheDecodedRequest :
    (given State.reset (.request (Request.ofWord 0x00C87))).inbox
      = .request (Request.ofWord 0x00C87) :: [] := rfl

theorem witness_IdleAndPortStepsTouchNoOtherField :
    State.reset.inbox = [] ∧ (given State.reset (.drive ⟨true, false, 9⟩)).inbox
      = .drive ⟨true, false, 9⟩ :: [] := ⟨rfl, rfl⟩

theorem witness_EveryStepCompletesAndEveryRequestIsAnswered :
    (given State.reset (.request (Request.ofWord 0))).inbox = .request (Request.ofWord 0) :: [] := rfl

theorem witness_DecodeUndoesEncode_request : (Instr.encCmd 0xFF 63 noPay).WellFormed := by decide
theorem witness_DecodeUndoesEncode_shortest_frame :
    (Instr.frameRcChannels [0xC8, 0x02, 0x16, 0x00]).WellFormed := by decide
theorem witness_DecodeUndoesEncode_longest_frame :
    (Instr.frameUnknown ([0xC8, 0x3E] ++ List.replicate 62 0)).WellFormed := by decide +kernel
theorem witness_DecodeUndoesEncode_frame_rows :
    (Instr.frameMspCommand [0xC8, 0x02, 0x7A, 0x00]).WellFormed
      ∧ (Instr.frameLinkStatistics [0xC8, 0x02, 0x14, 0x00]).WellFormed
      ∧ (Instr.frameBatterySensor [0xC8, 0x02, 0x08, 0x00]).WellFormed
      ∧ (Instr.frameAttitude [0xC8, 0x02, 0x1E, 0x00]).WellFormed
      ∧ (Instr.frameFlightMode [0xC8, 0x02, 0x21, 0x00]).WellFormed := by decide

theorem witness_EnvelopeFieldsReadBack :
    ([] : List Byte).length ≤ 60 ∧ (List.replicate 60 (0 : Byte)).length ≤ 60 := by decide

theorem witness_EveryEncodedFrameHasTheEnvelope_rc :
    ∃ t r, exec (.encRc (Vector.replicate 16 992)) State.reset = .next t ∧ t.response = some r :=
  ⟨_, _, rfl, rfl⟩
theorem witness_EveryEncodedFrameHasTheEnvelope_cmd :
    (57 : BitVec 6).toNat ≤ 57
      ∧ ∃ t r, exec (.encCmd 0x2D 57 noPay) State.reset = .next t ∧ t.response = some r :=
  ⟨by decide, _, _, rfl, rfl⟩

theorem witness_ChecksumOfAnInterleavedSequence :
    (∃ s : State, s.inbox = .request (Request.ofWord 0x00001)
        :: [.request (Request.ofWord 0x00312), .drive ⟨true, true, 1⟩, .request (Request.ofWord 0x00C87)])
      ∧ decodeRequest (Request.ofWord 0x00001) = .crcInit
      ∧ ∀ x ∈ [Input.request (Request.ofWord 0x00312), .drive ⟨true, true, 1⟩,
          .request (Request.ofWord 0x00C87)], keepsChecksum x := by
  refine ⟨⟨{ State.reset with inbox := _ }, rfl⟩, by decide, ?_⟩
  intro x hx
  fin_cases hx
  · show decodeRequest _ ≠ _; decide
  · trivial
  · show decodeRequest _ ≠ _; decide

theorem witness_ChecksumIsLinear : ([0x01] : List Byte).length = ([0x80] : List Byte).length := rfl

theorem witness_OnlyChecksumOperationsWriteTheAccumulator :
    (∃ t, exec .crcInit State.reset = .next t) ∧ (∃ t, exec (.crcByte 1) State.reset = .next t)
      ∧ ∃ t, exec (.frameLinkStatistics linkFrame) State.reset = .next t := ⟨⟨_, rfl⟩, ⟨_, rfl⟩, ⟨_, rfl⟩⟩

theorem witness_PackPlacesEveryChannelBit : (15 : Nat) < 16 ∧ (10 : Nat) < 11 := by decide
theorem witness_UnpackReadsEveryChannelBit : (15 : Nat) < 16 ∧ (10 : Nat) < 11 := by decide
theorem witness_PackAndUnpackAreInverse : (15 : Nat) < 16 := by decide

theorem witness_EncCmdEmitsTheCommandFrame : (0 : BitVec 6).toNat ≤ 57 ∧ (57 : BitVec 6).toNat ≤ 57 := by decide
theorem witness_EncCmdRefusesALongPayload : 57 < (58 : BitVec 6).toNat ∧ 57 < (63 : BitVec 6).toNat := by decide

theorem witness_LongestCommandFrameIsDroppedByTheFramer :
    ∃ s : State, s.rxState = .idle
      ∧ s.inbox = rxInputs (cmdFrame Config.hw 0x2D (payloadOperand 57 noPay)) ++ [] :=
  ⟨{ State.reset with inbox := _ }, rfl, rfl⟩

theorem witness_RxByteInIdle : State.reset.rxState = .idle ∧ (0xC8 : Byte) = 0xC8 ∧ (0x12 : Byte) ≠ 0xC8 := by
  decide
theorem witness_RxByteAcceptsALength_shortest :
    (framer .len 0 1 [0xC8]).rxState = .len ∧ 2 ≤ (2 : Byte).toNat ∧ (2 : Byte).toNat ≤ 62 := by decide
theorem witness_RxByteAcceptsALength_longest :
    (framer .len 0 1 [0xC8]).rxState = .len ∧ 2 ≤ (62 : Byte).toNat ∧ (62 : Byte).toNat ≤ 62 := by decide
theorem witness_RxByteDropsALengthOutOfRange :
    (framer .len 0 1 [0xC8]).rxState = .len ∧ 62 < (63 : Byte).toNat ∧ (1 : Byte).toNat < 2
      ∧ 62 < (0xC8 : Byte).toNat := by decide

theorem witness_RxByteInBody_completes :
    (beforeLast [0xC8, 0x02, 0x16, 0xD3]).rxState = .body
      ∧ (beforeLast [0xC8, 0x02, 0x16, 0xD3]).rxIdx.toNat + 1 ≤ 64
      ∧ (beforeLast [0xC8, 0x02, 0x16, 0xD3]).rxIdx.toNat + 1
        = (beforeLast [0xC8, 0x02, 0x16, 0xD3]).rxLen.toNat + 2 := by decide
theorem witness_RxByteInBody_fills_the_scratch :
    (framer .body 62 63 [0xC8, 0x3E]).rxState = .body
      ∧ (framer .body 62 63 [0xC8, 0x3E]).rxIdx.toNat + 1 ≤ 64
      ∧ (framer .body 62 63 [0xC8, 0x3E]).rxIdx.toNat + 1
        = (framer .body 62 63 [0xC8, 0x3E]).rxLen.toNat + 2 := by decide
theorem witness_RxByteInBody_progresses :
    (framer .body 3 3 [0xC8, 0x03, 0x16]).rxState = .body
      ∧ (framer .body 3 3 [0xC8, 0x03, 0x16]).rxIdx.toNat + 1 ≤ 64
      ∧ (framer .body 3 3 [0xC8, 0x03, 0x16]).rxIdx.toNat + 1
        ≠ (framer .body 3 3 [0xC8, 0x03, 0x16]).rxLen.toNat + 2 := by decide

theorem witness_RxByteOverflow_in_any_configuration :
    (framer .body 12 10 [0xC8, 0x0C]).rxState = .body
      ∧ (framer .body 12 10 [0xC8, 0x0C]).rxIdx.toNat + 1 > tOvf.rxBufCap := by decide
theorem witness_RxByteOverflow_of_this_hardware :
    (framer .body 62 64 [0xC8, 0x3E]).rxState = .body
      ∧ (framer .body 62 64 [0xC8, 0x3E]).rxIdx.toNat + 1 > 64 := by decide

/-- A framer in the middle of a body satisfies the invariant. -/
theorem body_inv : (framer .body 3 3 [0xC8, 0x03, 0x16]).Inv := by
  refine ⟨⟨by decide, by decide, by decide, by decide, by decide, by decide, by decide, ?_⟩, by decide⟩
  show ∀ i < 3, _
  decide

theorem witness_RxByteOverflow_never_reached :
    (framer .body 3 3 [0xC8, 0x03, 0x16]).Inv
      ∧ ∃ t r, exec (.rxByte 0xC8) (framer .body 3 3 [0xC8, 0x03, 0x16]) = .next t
        ∧ t.response = some r := ⟨body_inv, _, _, rfl, rfl⟩

theorem witness_RxByteFrame :
    (∃ t, exec (.rxByte 0xC8) State.reset = .next t) ∧ State.reset.rxStores 0xC8
      ∧ ¬ State.reset.rxStores 0xC7
      ∧ (framer .len 0 1 [0xC8]).rxStores 62 ∧ ¬ (framer .len 0 1 [0xC8]).rxStores 63
      ∧ (framer .body 62 63 [0xC8, 0x3E]).rxStores 0 ∧ ¬ (framer .body 62 64 [0xC8, 0x3E]).rxStores 0
      ∧ (framer .body 62 63 [0xC8, 0x3E]).completes
      ∧ (0 : Nat) ≠ (framer .body 62 63 [0xC8, 0x3E]).storeIndex := by
  refine ⟨⟨_, rfl⟩, rfl, ?_, ?_, ?_, ?_, ?_, rfl, by decide⟩
  · show ¬ ((0xC7 : Byte) = 0xC8); decide
  · show 2 ≤ (62 : Byte).toNat ∧ (62 : Byte).toNat ≤ 62; decide
  · show ¬ (2 ≤ (63 : Byte).toNat ∧ (63 : Byte).toNat ≤ 62); decide
  · show (63 : BitVec 7).toNat + 1 ≤ 64; decide
  · show ¬ ((64 : BitVec 7).toNat + 1 ≤ 64); decide

theorem witness_DropsAreSilentAndReturnToIdle :
    ∃ t r, exec (.rxByte 63) (framer .len 0 1 [0xC8]) = .next t ∧ t.response = some r
      ∧ r.rxStatus ∈ [RxStatus.dispatch, .dropLen, .dropOvf, .dropCrc] := ⟨_, _, rfl, rfl, by decide⟩

theorem witness_FramerReassemblesAnyCompleteFrame :
    FrameComplete [0xC8, 0x02, 0x16, 0xD3]
      ∧ ∃ s : State, s.rxState = .idle ∧ s.inbox = rxInputs [0xC8, 0x02, 0x16, 0xD3] ++ [] :=
  ⟨by decide, { State.reset with inbox := _ }, rfl, rfl⟩
theorem witness_FramerReassemblesAnyCompleteFrame_longest :
    FrameComplete ([0xC8, 0x3E] ++ List.replicate 62 0)
      ∧ ∃ s : State, s.rxState = .idle
        ∧ s.inbox = rxInputs ([0xC8, 0x3E] ++ List.replicate 62 0) ++ [.reset] :=
  ⟨by decide +kernel, { State.reset with inbox := _ }, rfl, rfl⟩

theorem witness_EncodedRcFrameLoopsBack :
    ∃ s : State, s.rxState = .idle
      ∧ s.inbox = rxInputs (rcFrame (Vector.replicate 16 (992 : Lane))) ++ [] :=
  ⟨{ State.reset with inbox := _ }, rfl, rfl⟩

theorem witness_ChecksumCheckGovernsDispatch :
    tCheck.rxCrcCheck = true
      ∧ crc8 (slice [0xC8, 0x02, 0x16, 0xD4] 2 (byteAt [0xC8, 0x02, 0x16, 0xD4] 1).toNat)
        ≠ byteAt [0xC8, 0x02, 0x16, 0xD4] ((byteAt [0xC8, 0x02, 0x16, 0xD4] 1).toNat + 1)
      ∧ t0.rxCrcCheck = false := by decide

theorem witness_DispatchedFrameGivesOneEvent :
    t0.rxCrcCheck = false
      ∧ tCheck.rxCrcCheck = true
      ∧ crc8 (slice [0xC8, 0x02, 0x16, 0xD3] 2 (byteAt [0xC8, 0x02, 0x16, 0xD3] 1).toNat)
        = byteAt [0xC8, 0x02, 0x16, 0xD3] ((byteAt [0xC8, 0x02, 0x16, 0xD3] 1).toNat + 1) := by decide
/-- Each sample's type with a payload its decoder reads (L2-6). -/
theorem witness_DispatchedFrameGivesOneEvent_samples :
    (byteAt linkFrame 2 = 0x14
        ∧ t0.decLs (slice linkFrame 3 (byteAt linkFrame 1).toNat) = some ⟨-60, -60, 100, 5, 2⟩)
      ∧ (byteAt batteryFrame 2 = 0x08
        ∧ t0.decBat (slice batteryFrame 3 (byteAt batteryFrame 1).toNat) = some ⟨16800, 1500, 500⟩)
      ∧ (byteAt attitudeFrame 2 = 0x1E
        ∧ t0.decAtt (slice attitudeFrame 3 (byteAt attitudeFrame 1).toNat) = some ⟨3000, -3000, 0⟩)
      ∧ (byteAt modeFrame 2 = 0x21
        ∧ t0.decFm (slice modeFrame 3 (byteAt modeFrame 1).toNat) = some 65) := by decide +kernel
/-- No sample: a type of no decoder, and the shortest payload, which T-CRSF does not decode. -/
theorem witness_DispatchedFrameGivesOneEvent_unknown :
    (byteAt [0xC8, 0x02, 0x16, 0xD3] 2 ≠ 0x14 ∧ byteAt [0xC8, 0x02, 0x16, 0xD3] 2 ≠ 0x08
        ∧ byteAt [0xC8, 0x02, 0x16, 0xD3] 2 ≠ 0x1E ∧ byteAt [0xC8, 0x02, 0x16, 0xD3] 2 ≠ 0x21)
      ∧ t0.decLs [] = none ∧ t0.decBat [] = none ∧ t0.decAtt [] = none ∧ t0.decFm [] = none := by
  decide +kernel

theorem witness_LinkFlagFollowsDecodedStatistics :
    t0.rxCrcCheck = false ∧ byteAt linkFrame 2 = 0x14
      ∧ t0.decLs (slice linkFrame 3 (byteAt linkFrame 1).toNat) = some ⟨-60, -60, 100, 5, 2⟩
      ∧ tNone.decLs (slice linkFrame 3 (byteAt linkFrame 1).toNat) = none := by decide +kernel

theorem witness_GateOutIsTheGateOfThePortsAndTheLink :
    ((⟨true, true, 7⟩ : Ports).armedIn = true ∧ (State.reset.linkOk = true ∨ (⟨true, true, 7⟩ : Ports).overrideIn = true))
      ∧ ¬ (State.reset.ports.armedIn = true ∧ (State.reset.linkOk = true ∨ State.reset.ports.overrideIn = true)) := by
  decide

theorem witness_DisarmedGateStaysClosedOnEveryRun :
    ∃ s t : State, s.ports.armedIn = true
      ∧ s.inbox = .drive ⟨false, true, 7⟩ :: [.drive ⟨false, true, 9⟩]
      ∧ (∀ q, Input.drive q ∈ [Input.drive ⟨false, true, 9⟩] → q.armedIn = false)
      ∧ steps 2 s = .next t := by
  refine ⟨{ State.reset with ports := ⟨true, true, 7⟩, inbox := _ }, _, rfl, rfl, ?_, rfl⟩
  intro q hq
  simp at hq
  rw [hq]

theorem witness_OnlyDecodedLinkStatisticsChangeTheLinkFlag :
    ∃ t, step (given { State.reset with linkOk := true } .reset) = .next t ∧ t.linkOk ≠ true :=
  ⟨_, rfl, by decide⟩

theorem witness_RequestsWithoutSideEffect :
    writesNoState (.frameBatterySensor [0xC8, 0x02, 0x08, 0x29])
      ∧ ∃ t, exec (.frameBatterySensor [0xC8, 0x02, 0x08, 0x29]) State.reset = .next t := ⟨trivial, _, rfl⟩

theorem witness_ErrorsHaveNoEffect :
    ∃ t r, exec (.reserved 7) State.reset = .next t ∧ t.response = some r ∧ r.status ≠ .ok :=
  ⟨_, _, rfl, rfl, by decide⟩

theorem witness_ErrorsAreRaisedOnlyWhereStated :
    57 < (58 : BitVec 6).toNat
      ∧ ∃ t r, exec (.reserved 0) State.reset = .next t ∧ t.response = some r ∧ r.status = .errIllegal :=
  ⟨by decide, _, _, rfl, rfl, rfl⟩

theorem witness_NoRequestReadsResponseOrPorts : ∃ t, exec (.rxByte 0xC8) State.reset = .next t := ⟨_, rfl⟩

theorem witness_FreeScratchBytesReachNoResponse :
    (framer .body 3 3 [0xC8, 0x03, 0x16]).Inv
      ∧ ∃ t, exec (.rxByte 5) (framer .body 3 3 [0xC8, 0x03, 0x16]) = .next t := ⟨body_inv, _, rfl⟩

theorem witness_EveryStepKeepsTheFramerInvariant :
    (given (framer .body 3 3 [0xC8, 0x03, 0x16]) (.request (Request.ofWord 0x00C87))).Inv
      ∧ ∃ t, step (given (framer .body 3 3 [0xC8, 0x03, 0x16]) (.request (Request.ofWord 0x00C87))) = .next t
        ∧ t.rxIdx = 4 := ⟨body_inv, _, rfl, rfl⟩

theorem witness_EveryReachableStateHasTheFramerInvariant :
    (∃ t, steps 1 { State.reset with inbox := rxInputs [0xC8, 0x02] } = .next t ∧ t.rxState = .len)
      ∧ ∃ t, steps 2 { State.reset with inbox := rxInputs [0xC8, 0x02] } = .next t ∧ t.rxState = .body :=
  ⟨⟨_, rfl, rfl⟩, _, rfl, rfl⟩

end Sys2Proof.Tests
end

section
/-! SUPPORT. What a step, an instruction and RX_BYTE can do, each said once: one equation per kind of input,
and one elimination rule per shared operation (spec 20_memory.md R46, R47; 43_framer.md R150 to R157, R170). -/

namespace Sys2Proof.Machine

/-! ### The step, by the next input (R46, R211, R230) -/

theorem step_nil {s : State} (h : s.inbox = []) : step s = .next s := by
  simp [step, fetch, h]

theorem step_drive {s : State} {p : Ports} {rest : List Input} (h : s.inbox = .drive p :: rest) :
    step s = .next ({ s with inbox := rest }.drive p) := by
  simp [step, fetch, h]

theorem step_reset {s : State} {rest : List Input} (h : s.inbox = .reset :: rest) :
    step s = .next { s with inbox := rest }.takeReset := by
  simp [step, fetch, h]

theorem step_request {s : State} {r : Request} {rest : List Input}
    (h : s.inbox = .request r :: rest) :
    step s = exec (decodeRequest r) { s with inbox := rest } := by
  simp [step, fetch, h]

/-- A property holds after a step if it holds in each of the four things a step can do. -/
theorem step_elim {P : State → Prop} {s t : State} (h : step s = .next t)
    (nothing : s.inbox = [] → P s)
    (drive : ∀ p rest, s.inbox = .drive p :: rest → P ({ s with inbox := rest }.drive p))
    (reset : ∀ rest, s.inbox = .reset :: rest → P { s with inbox := rest }.takeReset)
    (request : ∀ r rest, s.inbox = .request r :: rest →
      exec (decodeRequest r) { s with inbox := rest } = .next t → P t) : P t := by
  cases hin : s.inbox with
  | nil => cases (step_nil hin).symm.trans h; exact nothing hin
  | cons x rest =>
    cases x with
    | drive p => cases (step_drive hin).symm.trans h; exact drive p rest hin
    | reset => cases (step_reset hin).symm.trans h; exact reset rest hin
    | request r => exact request r rest hin ((step_request hin).symm.trans h)

/-! ### Several steps -/

/-- A run of `n + 1` steps that completes is a step that completes and a run of `n`. -/
theorem steps_succ_next {n : Nat} {s t : State} (h : steps (n + 1) s = .next t) :
    ∃ u, step s = .next u ∧ steps n u = .next t := by
  unfold steps at h
  split at h
  · next u hu => exact ⟨u, hu, h⟩
  · cases h
  · cases h

/-- What every step keeps, every run keeps. -/
theorem steps_keep {P : State → Prop} (hstep : ∀ s t, P s → step s = .next t → P t)
    {n : Nat} {s t : State} (hs : P s) (h : steps n s = .next t) : P t := by
  induction n generalizing s with
  | zero => cases h; exact hs
  | succ n ih =>
    obtain ⟨u, hu, hrun⟩ := steps_succ_next h
    exact ih (hstep s u hs hu) hrun

/-! ### The instructions (R47) -/

/-- A frame of any type but LINK_STATISTICS only answers, whatever the state (R47). -/
theorem handleFrame_eq (p : Params) (f : List Byte) (e : Event) (s : State) :
    handleFrame p f e s
      = s.respond (if crcDrops p f then ⟨.ok, [], none, .dropCrc, none⟩
        else ⟨.ok, [], none, .dispatch, some e⟩) := by
  unfold handleFrame
  split <;> simp

/-- ENC_CMD only answers, whatever the state (R47, R121, R122). -/
theorem encCmdWith_eq (p : Params) (fn : Byte) (n : BitVec 6)
    (pay : Vector Byte Config.cmdMaxPayload) (s : State) :
    encCmdWith p fn n pay s
      = s.respond (if n.toNat > p.cmdMaxPayload then ⟨.errPrecond, [], none, .none, none⟩
        else ⟨.ok, cmdFrame p fn (payloadOperand n pay), none, .none, none⟩) := by
  unfold encCmdWith
  split <;> simp

/-- A LINK_STATISTICS frame only answers, or writes a flag computed from the frame alone and answers; which of
the two, and with which response, does not depend on the state (R161, R170). -/
theorem handleLinkStats_shape (p : Params) (f : List Byte) :
    ∃ r, (∀ s, handleLinkStats p f s = s.respond r)
      ∨ ∃ a, ∀ s, handleLinkStats p f s = { s with linkOk := a }.respond r := by
  unfold handleLinkStats
  split
  · exact ⟨_, .inl fun s => s.rxRespond_eq _⟩
  · cases p.decLs (framePayload f) with
    | none => exact ⟨_, .inl fun s => s.notify_eq _⟩
    | some v => exact ⟨_, .inr ⟨linkFlag v, fun s => State.notify_eq _ _⟩⟩

/-- An instruction that writes no state field only answers, and its response does not depend on the state. -/
theorem exec_of_writesNoState {i : Instr} (h : writesNoState i) :
    ∃ r, ∀ s, exec i s = .next (s.respond r) := by
  cases i with
  | crcInit | crcByte b | rxByte b | frameLinkStatistics f => exact h.elim
  | nop | pack ch | unpack pk | encRc ch | reserved op => exact ⟨_, fun _ => rfl⟩
  | encCmd fn n pay => exact ⟨_, fun s => congrArg _ (encCmdWith_eq _ fn n pay s)⟩
  | frameRcChannels f | frameMspCommand f | frameBatterySensor f | frameAttitude f
  | frameFlightMode f | frameUnknown f => exact ⟨_, fun s => congrArg _ (handleFrame_eq _ f _ s)⟩

/-- The next state after an instruction that writes no state field, with what it does elsewhere. -/
theorem eq_respond_of_writesNoState {i : Instr} {s t : State} (h : exec i s = .next t)
    (hi : writesNoState i) : ∃ r, t = s.respond r ∧ ∀ u, exec i u = .next (u.respond r) := by
  obtain ⟨r, hr⟩ := exec_of_writesNoState hi
  exact ⟨r, Host.Outcome.next.inj (h.symm.trans (hr s)), hr⟩

theorem exec_crcInit (s : State) : exec .crcInit s = .next (s.writeCrc 0x00) := rfl

theorem exec_crcByte (b : Byte) (s : State) :
    exec (.crcByte b) s = .next (s.writeCrc (crcStep s.crcAcc b)) := rfl

theorem exec_rxByte (b : Byte) (s : State) :
    exec (.rxByte b) s = .next (rxByteWith Config.hw b s) := rfl

theorem exec_frameLinkStatistics (f : List Byte) (s : State) :
    exec (.frameLinkStatistics f) s = .next (handleLinkStats Config.hw f s) := rfl

/-- A property holds after an instruction if it holds after an answer that writes nothing, and in each of the
four things an instruction that writes can do. -/
theorem exec_elim {P : State → Prop} {i : Instr} {s t : State} (h : exec i s = .next t)
    (quiet : writesNoState i → ∀ r, P (s.respond r))
    (crc : ∀ a, P (s.writeCrc a))
    (rxByte : ∀ b, i = .rxByte b → P (rxByteWith Config.hw b s))
    (linkStats : ∀ f, i = .frameLinkStatistics f → ∀ a r, P ({ s with linkOk := a }.respond r)) :
    P t := by
  cases i with
  | crcInit => cases (exec_crcInit s).symm.trans h; exact crc _
  | crcByte b => cases (exec_crcByte b s).symm.trans h; exact crc _
  | rxByte b => cases (exec_rxByte b s).symm.trans h; exact rxByte b rfl
  | frameLinkStatistics f =>
    cases (exec_frameLinkStatistics f s).symm.trans h
    obtain ⟨r, hr | ⟨a, hr⟩⟩ := handleLinkStats_shape Config.hw f
    · rw [hr]; exact linkStats f rfl s.linkOk r
    · rw [hr]; exact linkStats f rfl a r
  | _ =>
    obtain ⟨r, rfl, -⟩ := eq_respond_of_writesNoState h trivial
    exact quiet trivial r

/-- No request is a LINK_STATISTICS frame: the frame rows are reached through RX_BYTE alone (R63, R160). -/
theorem decodeRequest_ne_frameLinkStatistics (r : Request) (f : List Byte) :
    decodeRequest r ≠ .frameLinkStatistics f := by
  unfold decodeRequest
  split <;> nofun

/-! ### RX_BYTE (R150 to R157) -/

/-- A property holds after RX_BYTE if it holds in each of the seven things RX_BYTE can do. -/
theorem rxByteWith_elim {P : State → Prop} (p : Params) (b : Byte) (s : State)
    (hunt : s.rxState = .idle → b ≠ Config.sync → P (s.rxRespond .none))
    (sync : s.rxState = .idle → b = Config.sync →
      P ({ s.bufWrite 0 Config.sync with rxIdx := 1, rxState := .len }.rxRespond .progress))
    (dropLen : s.rxState = .len → b.toNat > p.rxMaxLen ∨ b.toNat < p.rxMinLen →
      P (s.toIdle.rxRespond .dropLen))
    (accept : s.rxState = .len → p.rxMinLen ≤ b.toNat → b.toNat ≤ p.rxMaxLen →
      P ({ s.bufWrite 1 b with rxLen := b, rxIdx := 2, rxState := .body }.rxRespond .progress))
    (dropOvf : s.rxState = .body → s.overflows p → P (s.toIdle.rxRespond .dropOvf))
    (complete : s.rxState = .body → ¬ s.overflows p → s.completes →
      P (dispatch p (s.frameWith b) (s.bufWrite s.rxIdx.toNat b).toIdle))
    (progress : s.rxState = .body → ¬ s.overflows p → ¬ s.completes →
      P ({ s.bufWrite s.rxIdx.toNat b with
            rxIdx := BitVec.ofNat 7 (s.rxIdx.toNat + 1) }.rxRespond .progress)) :
    P (rxByteWith p b s) := by
  cases hs : s.rxState with
  | idle =>
    by_cases hb : b = Config.sync
    · subst hb; rw [rxByteWith_sync p s hs]; exact sync hs rfl
    · rw [rxByteWith_hunt p b s hs hb]; exact hunt hs hb
  | len =>
    by_cases hb : b.toNat > p.rxMaxLen ∨ b.toNat < p.rxMinLen
    · rw [rxByteWith_dropLen p b s hs hb]; exact dropLen hs hb
    · have hmin : p.rxMinLen ≤ b.toNat := by omega
      have hmax : b.toNat ≤ p.rxMaxLen := by omega
      rw [rxByteWith_accept p b s hs hmin hmax]; exact accept hs hmin hmax
  | body =>
    by_cases ho : s.overflows p
    · rw [rxByteWith_dropOvf p b s hs ho]; exact dropOvf hs ho
    · by_cases hc : s.completes
      · rw [rxByteWith_complete p b s hs ho hc]; exact complete hs ho hc
      · rw [rxByteWith_progress p b s hs ho hc]; exact progress hs ho hc

/-- RX_BYTE leaves the checksum accumulator (R23). -/
theorem rxByteWith_crcAcc (p : Params) (b : Byte) (s : State) :
    (rxByteWith p b s).crcAcc = s.crcAcc := by
  apply rxByteWith_elim (P := fun t => t.crcAcc = s.crcAcc)
  case complete => intros; rw [dispatch_eq]; rfl
  all_goals intros; rfl

end Sys2Proof.Machine
end

section
/-! SUPPORT and O57 to O59. The invariant, said per state of the framer, and what keeps it (spec 10_state.md R32). -/

namespace Sys2Proof.Machine

/-! ### The written indices of the scratch -/

/-- Writing at an index keeps every index below it written, and adds itself. -/
theorem Memory.writtenBelow_write {m : Memory} {n : Nat} (v : Byte) (h : m.writtenBelow n) :
    (m.write n v).writtenBelow (n + 1) := by
  intro i hi
  rw [Memory.find_write]
  split
  · rfl
  · next hne => exact h i (by omega)

/-! ### The invariant in each state of the framer -/

/-- What R32 says of the framer in BODY, with every stored byte written since reset. -/
structure State.BodyInv (s : State) : Prop where
  minLen : Config.hw.rxMinLen ≤ s.rxLen.toNat
  maxLen : s.rxLen.toNat ≤ Config.hw.rxMaxLen
  syncByte : s.rxBuf.find 0 = some Config.sync
  lenByte : s.rxBuf.find 1 = some s.rxLen
  idxLow : 2 ≤ s.rxIdx.toNat
  idxHigh : s.rxIdx.toNat < s.rxLen.toNat + 2
  idxCap : s.rxIdx.toNat ≤ Config.hw.rxBufCap
  written : s.rxBuf.writtenBelow s.rxIdx.toNat

theorem State.framerInv_idle {s : State} (h : s.rxState = .idle) :
    s.FramerInv ↔ s.rxIdx = 0 := by
  unfold State.FramerInv
  rw [h]

theorem State.framerInv_len {s : State} (h : s.rxState = .len) :
    s.FramerInv ↔ s.rxIdx = 1 ∧ s.rxBuf.find 0 = some Config.sync := by
  unfold State.FramerInv
  rw [h]

theorem State.framerInv_body {s : State} (h : s.rxState = .body) :
    s.FramerInv ↔ s.BodyInv := by
  unfold State.FramerInv
  rw [h]
  exact ⟨fun ⟨h1, h2, h3, h4, h5, h6, h7, h8⟩ => ⟨h1, h2, h3, h4, h5, h6, h7, h8⟩,
    fun ⟨h1, h2, h3, h4, h5, h6, h7, h8⟩ => ⟨h1, h2, h3, h4, h5, h6, h7, h8⟩⟩

/-! ### What the invariant does not read, and the return to IDLE -/

/-- The invariant speaks of the framer's registers and the scratch alone. -/
theorem State.Inv.of_eq {s t : State} (h : s.Inv) (hstate : t.rxState = s.rxState)
    (hlen : t.rxLen = s.rxLen) (hidx : t.rxIdx = s.rxIdx) (hbuf : t.rxBuf = s.rxBuf) : t.Inv := by
  unfold State.Inv State.FramerInv at *
  rwa [hstate, hlen, hidx, hbuf]

/-- In IDLE with no partial frame the invariant is the scratch's canonical form. -/
theorem State.inv_of_idle {s : State} (hstate : s.rxState = .idle) (hidx : s.rxIdx = 0)
    (hbuf : s.rxBuf.wf) : s.Inv :=
  ⟨(State.framerInv_idle hstate).mpr hidx, hbuf⟩

/-! ### RX_BYTE keeps the invariant -/

/-- An accepted length byte leads to a BODY of the invariant (R153). -/
theorem State.bodyInv_accept {s : State} {b : Byte} (hsync : s.rxBuf.find 0 = some Config.sync)
    (hmin : Config.hw.rxMinLen ≤ b.toNat) (hmax : b.toNat ≤ Config.hw.rxMaxLen) :
    State.BodyInv
      ({ s.bufWrite 1 b with rxLen := b, rxIdx := 2, rxState := .body }.rxRespond .progress) where
  minLen := hmin
  maxLen := hmax
  syncByte := (Memory.find_write_ne _ b (by decide)).trans hsync
  lenByte := Memory.find_write_same _ 1 b
  idxLow := le_rfl
  idxHigh := by
    change 2 ≤ b.toNat at hmin
    change 2 < b.toNat + 2
    omega
  idxCap := show 2 ≤ 64 by decide
  written := Memory.writtenBelow_write b fun i hi => by
    obtain rfl : i = 0 := by omega
    rw [hsync]; rfl

/-- A body byte that is stored and completes no frame leads to a BODY of the invariant (R156). -/
theorem State.bodyInv_progress {s : State} (b : Byte) (h : s.BodyInv)
    (hovf : ¬ s.overflows Config.hw) (hcomp : ¬ s.completes) :
    State.BodyInv
      ({ s.bufWrite s.rxIdx.toNat b with
          rxIdx := BitVec.ofNat 7 (s.rxIdx.toNat + 1) }.rxRespond .progress) := by
  obtain ⟨hmin, hmax, hsync, hlen, hlow, hhigh, -, hwritten⟩ := h
  have hcap : s.rxIdx.toNat + 1 ≤ 64 := not_lt.mp hovf
  have hidx : (BitVec.ofNat 7 (s.rxIdx.toNat + 1)).toNat = s.rxIdx.toNat + 1 := by
    rw [BitVec.toNat_ofNat]
    omega
  have hnext : s.rxIdx.toNat + 1 < s.rxLen.toNat + 2 := by
    have : s.rxIdx.toNat + 1 ≠ s.rxLen.toNat + 2 := hcomp
    omega
  exact {
    minLen := hmin
    maxLen := hmax
    syncByte := (Memory.find_write_ne _ b (by omega)).trans hsync
    lenByte := (Memory.find_write_ne _ b (by omega)).trans hlen
    idxLow := (Nat.le_succ_of_le hlow).trans_eq hidx.symm
    idxHigh := hidx.trans_lt hnext
    idxCap := hidx.trans_le hcap
    written := hidx.symm ▸ Memory.writtenBelow_write b hwritten }

/-- RX_BYTE keeps the invariant (R151 to R157). -/
theorem rxByteWith_keeps_inv (b : Byte) {s : State} (h : s.Inv) :
    (rxByteWith Config.hw b s).Inv := by
  obtain ⟨hf, hwf⟩ := h
  apply rxByteWith_elim (P := State.Inv)
  case hunt => intros; exact ⟨hf, hwf⟩
  case sync =>
    intros
    exact ⟨(State.framerInv_len rfl).mpr ⟨rfl, Memory.find_write_same _ 0 _⟩,
      Memory.write_wf _ (by decide) hwf⟩
  case dropLen => intros; exact State.inv_of_idle rfl rfl hwf
  case accept =>
    intro hs hmin hmax
    obtain ⟨-, hsync⟩ := (State.framerInv_len hs).mp hf
    exact ⟨(State.framerInv_body rfl).mpr (State.bodyInv_accept hsync hmin hmax),
      Memory.write_wf b (by decide) hwf⟩
  case dropOvf => intros; exact State.inv_of_idle rfl rfl hwf
  case complete =>
    intro _ hovf _
    rw [dispatch_eq]
    exact State.inv_of_idle rfl rfl (Memory.write_wf b (not_lt.mp hovf) hwf)
  case progress =>
    intro hs hovf hcomp
    have hbody := (State.framerInv_body hs).mp hf
    refine ⟨(State.framerInv_body ?_).mpr (State.bodyInv_progress b hbody hovf hcomp),
      Memory.write_wf b (not_lt.mp hovf) hwf⟩
    exact hs

/-- Every instruction keeps the invariant. -/
theorem exec_keeps_inv {i : Instr} {s t : State} (h : s.Inv) (hexec : exec i s = .next t) :
    t.Inv := by
  apply exec_elim hexec
  case quiet => intro _ _; exact h.of_eq rfl rfl rfl rfl
  case crc => intro _; exact h.of_eq rfl rfl rfl rfl
  case rxByte => intro b _; exact rxByteWith_keeps_inv b h
  case linkStats => intro _ _ _ _; exact h.of_eq rfl rfl rfl rfl

/-! ### The obligations on the invariant -/

/-- Settles O57. -/
theorem resetSatisfiesTheFramerInvariant : Obligations.ResetSatisfiesTheFramerInvariant :=
  State.inv_of_idle rfl rfl Memory.reset_wf

/-- Settles O58: a reset and a drive are immediate, and a request is an instruction, which keeps the invariant
because RX_BYTE does. -/
theorem everyStepKeepsTheFramerInvariant : Obligations.EveryStepKeepsTheFramerInvariant := by
  intro s t h hstep
  apply step_elim hstep
  case nothing => intro _; exact h
  case drive => intro _ _ _; exact h.of_eq rfl rfl rfl rfl
  case reset => intro _ _; exact State.inv_of_idle rfl rfl Memory.reset_wf
  case request =>
    intro r rest _ hexec
    exact exec_keeps_inv (s := { s with inbox := rest }) (h.of_eq rfl rfl rfl rfl) hexec

/-- Settles O59: the invariant holds right after reset and every step keeps it; in each state of the framer it
says what R32 says. -/
theorem everyReachableStateHasTheFramerInvariant :
    Obligations.EveryReachableStateHasTheFramerInvariant := by
  intro n p q t hrun
  have hreset : State.Inv { State.reset with ports := p, inbox := q } :=
    State.Inv.of_eq resetSatisfiesTheFramerInvariant rfl rfl rfl rfl
  obtain ⟨hf, -⟩ : t.Inv := steps_keep everyStepKeepsTheFramerInvariant hreset hrun
  refine ⟨fun hs => (State.framerInv_idle hs).mp hf, fun hs => ?_, fun hs => ?_⟩
  · obtain ⟨hidx, hsync⟩ := (State.framerInv_len hs).mp hf
    exact ⟨hidx, State.bufRead_of_find hsync⟩
  · obtain ⟨hmin, hmax, hsync, hlen, hlow, hhigh, hcap, -⟩ := (State.framerInv_body hs).mp hf
    exact ⟨hmin, hmax, State.bufRead_of_find hsync, State.bufRead_of_find hlen, hlow, hhigh, hcap⟩

end Sys2Proof.Machine
end

section
/-! SUPPORT, O23 and O50. What writes crc_acc and link_ok (spec 10_state.md R23, R28; 43_framer.md R170). -/

namespace Sys2Proof.Machine

/-! ### The checksum accumulator -/

/-- Settles O23. -/
theorem onlyChecksumOperationsWriteTheAccumulator :
    Obligations.OnlyChecksumOperationsWriteTheAccumulator := by
  intro i s t h
  cases i with
  | crcInit => cases (exec_crcInit s).symm.trans h; rfl
  | crcByte b => cases (exec_crcByte b s).symm.trans h; rfl
  | rxByte b => cases (exec_rxByte b s).symm.trans h; exact rxByteWith_crcAcc Config.hw b s
  | frameLinkStatistics f =>
    cases (exec_frameLinkStatistics f s).symm.trans h
    obtain ⟨r, hr | ⟨a, hr⟩⟩ := handleLinkStats_shape Config.hw f <;> simp [hr]
  | _ =>
    obtain ⟨r, rfl, -⟩ := eq_respond_of_writesNoState h trivial
    rfl

/-! ### The link flag -/

/-- A dispatch that changes the flag is of a LINK_STATISTICS frame that decodes, and sets it to the value R170
computes. -/
theorem linkAfter_ne {p : Params} {f : List Byte} {old : Bool} (h : linkAfter p f old ≠ old) :
    FrameType.ofByte (frameType f) = .linkStatistics
      ∧ ∃ v, p.decLs (framePayload f) = some v ∧ linkAfter p f old = linkFlag v := by
  unfold linkAfter at h ⊢
  split at h
  · next hc =>
    rw [if_pos hc]
    cases hv : p.decLs (framePayload f) with
    | none => rw [hv] at h; exact absurd rfl h
    | some v => exact ⟨hc.1, v, rfl, rfl⟩
  · exact absurd rfl h

/-- RX_BYTE changes link_ok only where it completes a frame, by the dispatch of that frame (R150, R162). -/
theorem rxByteWith_linkOk_ne {p : Params} {b : Byte} {s : State}
    (h : (rxByteWith p b s).linkOk ≠ s.linkOk) :
    s.rxState = .body ∧ s.completes
      ∧ (rxByteWith p b s).linkOk = linkAfter p (s.frameWith b) s.linkOk := by
  revert h
  apply rxByteWith_elim (P := fun t => t.linkOk ≠ s.linkOk →
    s.rxState = .body ∧ s.completes ∧ t.linkOk = linkAfter p (s.frameWith b) s.linkOk)
  case complete => intro hs _ hcomp _; rw [dispatch_eq]; exact ⟨hs, hcomp, rfl⟩
  all_goals intros; contradiction

/-- The flag of R170 as a proposition. -/
theorem linkFlag_eq_true_iff (v : LinkStats) :
    linkFlag v = true ↔ v.lq.toInt > 50 ∧ (v.rssi1.toInt > -100 ∨ v.rssi2.toInt > -100) := by
  simp [linkFlag]

/-- An instruction that changes link_ok is a LINK_STATISTICS frame or RX_BYTE. -/
theorem exec_linkOk_ne {i : Instr} {s t : State} (hexec : exec i s = .next t)
    (h : t.linkOk ≠ s.linkOk) :
    (∃ f, i = .frameLinkStatistics f) ∨ ∃ b, i = .rxByte b ∧ t = rxByteWith Config.hw b s := by
  revert h
  apply exec_elim hexec
  case quiet => intro _ _ hne; exact absurd rfl hne
  case crc => intro _ hne; exact absurd rfl hne
  case rxByte => intro b hi _; exact .inr ⟨b, hi, rfl⟩
  case linkStats => intro f hi _ _ _; exact .inl ⟨f, hi⟩

/-- Settles O50. -/
theorem onlyDecodedLinkStatisticsChangeTheLinkFlag :
    Obligations.OnlyDecodedLinkStatisticsChangeTheLinkFlag := by
  intro s t hstep
  apply step_elim hstep
  case nothing => intro _ hne; exact absurd rfl hne
  case drive => intro _ _ _ hne; exact absurd rfl hne
  case reset => intro rest hin _; exact .inl ⟨rest, hin⟩
  case request =>
    intro r rest hin hexec hne
    obtain ⟨f, hf⟩ | ⟨b, hb, rfl⟩ := exec_linkOk_ne hexec hne
    · exact absurd hf (decodeRequest_ne_frameLinkStatistics r f)
    · obtain ⟨hbody, hcomp, hlink⟩ := rxByteWith_linkOk_ne hne
      rw [hlink] at hne ⊢
      obtain ⟨htype, v, hv, hflag⟩ := linkAfter_ne hne
      obtain ⟨-, -, hbyte, -⟩ := Laws.type_of_row _ _ htype
      rw [hflag]
      exact .inr ⟨r, rest, b, v, hin, hb, hbody, hcomp, hbyte rfl, hv, linkFlag_eq_true_iff v⟩

end Sys2Proof.Machine
end

section
/-! SUPPORT, O55 and O56. What no instruction reads or writes: the ports, the inputs still to come, the last response, and
the draw of the free scratch bytes (spec 10_state.md R27, R29, R30). -/

namespace Sys2Proof.Machine

/-- `s` with another last response, draw of the free bytes, input ports and inputs still to come: the fields of
the model's own. -/
def State.withSurroundings (s : State) (r : Option Response) (k : Nat) (p : Ports)
    (q : List Input) : State :=
  { s with response := r, rxDraw := k, ports := p, inbox := q }

/-- The two states have the same draw, ports and inputs still to come. -/
structure State.SameSurroundings (s t : State) : Prop where
  rxDraw : t.rxDraw = s.rxDraw
  ports : t.ports = s.ports
  inbox : t.inbox = s.inbox

/-- RX_BYTE writes neither the draw nor the ports nor the inputs still to come. -/
theorem rxByteWith_sameSurroundings (p : Params) (b : Byte) (s : State) :
    s.SameSurroundings (rxByteWith p b s) := by
  apply rxByteWith_elim (P := s.SameSurroundings)
  case complete => intros; rw [dispatch_eq]; exact ⟨rfl, rfl, rfl⟩
  all_goals intros; exact ⟨rfl, rfl, rfl⟩

/-- No instruction writes the draw, the ports or the inputs still to come. -/
theorem exec_sameSurroundings {i : Instr} {s t : State} (h : exec i s = .next t) :
    s.SameSurroundings t := by
  apply exec_elim h
  case rxByte => intro b _; exact rxByteWith_sameSurroundings Config.hw b s
  all_goals intros; exact ⟨rfl, rfl, rfl⟩

/-- RX_BYTE in other surroundings does the same, if the partial frame of a BODY reads the same there. -/
theorem rxByteWith_withSurroundings (c : Params) (b : Byte) (s : State) (r : Option Response)
    (k : Nat) (p : Ports) (q : List Input)
    (hframe : s.rxState = .body → (s.withSurroundings r k p q).frameWith b = s.frameWith b) :
    rxByteWith c b (s.withSurroundings r k p q)
      = (rxByteWith c b s).withSurroundings (rxByteWith c b s).response k p q := by
  apply rxByteWith_elim (P := fun t =>
    rxByteWith c b (s.withSurroundings r k p q) = t.withSurroundings t.response k p q)
  case hunt => exact fun hs hb => rxByteWith_hunt c b _ hs hb
  case sync => rintro hs rfl; exact rxByteWith_sync c _ hs
  case dropLen => exact fun hs hb => rxByteWith_dropLen c b _ hs hb
  case accept => exact fun hs hmin hmax => rxByteWith_accept c b _ hs hmin hmax
  case dropOvf => exact fun hs ho => rxByteWith_dropOvf c b _ hs ho
  case complete =>
    intro hs ho hc
    rw [rxByteWith_complete c b (s.withSurroundings r k p q) hs ho hc, hframe hs,
      dispatch_eq, dispatch_eq]
    rfl
  case progress => exact fun hs ho hc => rxByteWith_progress c b _ hs ho hc

/-- An instruction in other surroundings does the same, if the partial frame of a BODY reads the same there. -/
theorem exec_withSurroundings {i : Instr} {s t : State} (r : Option Response) (k : Nat) (p : Ports)
    (q : List Input)
    (hframe : ∀ b, s.rxState = .body → (s.withSurroundings r k p q).frameWith b = s.frameWith b)
    (h : exec i s = .next t) :
    exec i (s.withSurroundings r k p q) = .next (t.withSurroundings t.response k p q) := by
  cases i with
  | crcInit => cases (exec_crcInit s).symm.trans h; rfl
  | crcByte b => cases (exec_crcByte b s).symm.trans h; rfl
  | rxByte b =>
    cases (exec_rxByte b s).symm.trans h
    exact congrArg _ (rxByteWith_withSurroundings Config.hw b s r k p q (hframe b))
  | frameLinkStatistics f =>
    cases (exec_frameLinkStatistics f s).symm.trans h
    rw [exec_frameLinkStatistics]
    obtain ⟨a, ha | ⟨v, ha⟩⟩ := handleLinkStats_shape Config.hw f
    · rw [ha, ha]; rfl
    · rw [ha, ha]; rfl
  | _ =>
    obtain ⟨a, rfl, ha⟩ := eq_respond_of_writesNoState h trivial
    exact ha _

/-- Settles O55: with the draw kept, every index of the scratch reads the same. -/
theorem noRequestReadsResponseOrPorts : Obligations.NoRequestReadsResponseOrPorts := by
  intro i s t r p q h
  have hrun := exec_withSurroundings r s.rxDraw p q (fun _ _ => rfl) h
  have hdraw := (exec_sameSurroundings h).rxDraw
  exact hrun.trans (by rw [← hdraw]; rfl)

/-- A written index reads the same in any surroundings. -/
theorem State.bufRead_withSurroundings {s : State} {i : Nat} (r : Option Response) (k : Nat)
    (p : Ports) (q : List Input) (h : (s.rxBuf.find i).isSome) :
    (s.withSurroundings r k p q).bufRead i = s.bufRead i := by
  obtain ⟨v, hv⟩ := Option.isSome_iff_exists.mp h
  rw [State.bufRead_of_find hv]
  exact State.bufRead_of_find hv

/-- In a BODY of the invariant the partial frame reads the same in any surroundings: all its bytes are written. -/
theorem State.frameWith_withSurroundings {s : State} (r : Option Response) (k : Nat)
    (p : Ports) (q : List Input) (b : Byte) (h : s.BodyInv) :
    (s.withSurroundings r k p q).frameWith b = s.frameWith b := by
  have hread : ∀ i ∈ List.range s.rxIdx.toNat,
      (s.withSurroundings r k p q).bufRead i = s.bufRead i := fun i hi =>
    State.bufRead_withSurroundings r k p q (h.written i (List.mem_range.mp hi))
  exact congrArg (· ++ [b]) (List.map_congr_left hread)

/-- Settles O56: the only bytes of the scratch an instruction reads are the partial frame's, which the invariant
says are written. -/
theorem freeScratchBytesReachNoResponse : Obligations.FreeScratchBytesReachNoResponse := by
  intro i s t k hinv h
  have hrun := exec_withSurroundings s.response k s.ports s.inbox (fun b hs =>
    State.frameWith_withSurroundings _ _ _ _ b ((State.framerInv_body hs).mp hinv.1)) h
  obtain ⟨-, hports, hinbox⟩ := exec_sameSurroundings h
  exact hrun.trans (by rw [← hports, ← hinbox]; rfl)

end Sys2Proof.Machine
end

section
/-! O1, O3, O9 and O60. The values of reset, the numeric codes and the register outputs (spec 10_state.md R24, R28, R29,
R33; 30_encoding.md R80 to R82). -/

namespace Sys2Proof.Machine

/-- Settles O1. -/
theorem resetHoldsTheStatedValues : Obligations.ResetHoldsTheStatedValues :=
  ⟨rfl, rfl, rfl, rfl, rfl⟩

/-- Right after a reset no index is written, so each reads as the free byte of the next draw (U1). -/
theorem State.takeReset_bufRead (s : State) (i : Nat) :
    s.takeReset.bufRead i = Config.scratchDraw (s.rxDraw + 1) i := by
  simp [State.bufRead]

/-- Settles O3. -/
theorem scratchAfterResetIsAFreeDraw : Obligations.ScratchAfterResetIsAFreeDraw :=
  ⟨fun _ => rfl, fun _ _ i hin => ⟨_, step_reset hin, State.takeReset_bufRead _ i⟩⟩

/-- Settles O9. -/
theorem responseCodesAreTheSpecs : Obligations.ResponseCodesAreTheSpecs :=
  ⟨rfl, rfl, rfl, rfl⟩

/-- Settles O60. -/
theorem outputPortsShowTheRegisters : Obligations.OutputPortsShowTheRegisters :=
  fun _ => ⟨rfl, rfl⟩

end Sys2Proof.Machine
end

section
/-! SUPPORT and O36. What RX_BYTE stores and what it leaves unchanged (spec 20_memory.md R47; 43_framer.md R150 to
R157). -/

namespace Sys2Proof.Machine

/-! ### When RX_BYTE stores its byte, in each state of the framer (R152, R153, R156) -/

theorem State.rxStores_idle {s : State} (b : Byte) (h : s.rxState = .idle) :
    s.rxStores b ↔ b = Config.sync := by
  unfold State.rxStores
  rw [h]

theorem State.rxStores_len {s : State} (b : Byte) (h : s.rxState = .len) :
    s.rxStores b ↔ Config.hw.rxMinLen ≤ b.toNat ∧ b.toNat ≤ Config.hw.rxMaxLen := by
  unfold State.rxStores
  rw [h]

theorem State.rxStores_body {s : State} (b : Byte) (h : s.rxState = .body) :
    s.rxStores b ↔ ¬ s.overflows Config.hw := by
  unfold State.rxStores
  rw [h]
  exact not_lt.symm

/-! ### Reading the scratch -/

/-- A scratch index reads the same in two states with the same written bytes and the same draw. -/
theorem State.bufRead_congr {s t : State} (hbuf : t.rxBuf = s.rxBuf) (hdraw : t.rxDraw = s.rxDraw)
    (a : Nat) : t.bufRead a = s.bufRead a := by
  unfold State.bufRead
  rw [hbuf, hdraw]

/-- `BufRead` after the framer stores a byte. -/
theorem State.bufRead_store (s : State) (b : Byte) (a : Nat) :
    (s.store b).bufRead a = if a = s.storeIndex then b else s.bufRead a :=
  s.bufRead_bufWrite s.storeIndex a b

/-! ### What RX_BYTE writes -/

/-- A byte that is not stored is only answered, or sends the framer back to IDLE (R152, R154, R157). -/
theorem rxByteWith_of_not_rxStores {b : Byte} {s : State} (h : ¬ s.rxStores b) :
    ∃ r, rxByteWith Config.hw b s = s.respond r ∨ rxByteWith Config.hw b s = s.toIdle.respond r := by
  apply rxByteWith_elim (P := fun t => ∃ r, t = s.respond r ∨ t = s.toIdle.respond r)
  case hunt => intro _ _; exact ⟨_, .inl (s.rxRespond_eq _)⟩
  case dropLen => intro _ _; exact ⟨_, .inr (s.toIdle.rxRespond_eq _)⟩
  case dropOvf => intro _ _; exact ⟨_, .inr (s.toIdle.rxRespond_eq _)⟩
  case sync => intro hs hb; exact absurd ((State.rxStores_idle b hs).mpr hb) h
  case accept => intro hs hmin hmax; exact absurd ((State.rxStores_len b hs).mpr ⟨hmin, hmax⟩) h
  case complete => intro hs hovf _; exact absurd ((State.rxStores_body b hs).mpr hovf) h
  case progress => intro hs hovf _; exact absurd ((State.rxStores_body b hs).mpr hovf) h

/-- A byte that is stored is the one write to the scratch, at the store index (R152, R153, R156). -/
theorem rxByteWith_rxBuf_of_rxStores {b : Byte} {s : State} (h : s.rxStores b) :
    (rxByteWith Config.hw b s).rxBuf = (s.store b).rxBuf := by
  rw [State.store_rxBuf]
  apply rxByteWith_elim (P := fun t => t.rxBuf = s.rxBuf.write s.storeIndex b)
  case hunt => intro hs hb; exact absurd ((State.rxStores_idle b hs).mp h) hb
  case sync => rintro hs rfl; rw [s.storeIndex_idle hs]; rfl
  case dropLen =>
    intro hs hb
    obtain ⟨hmin, hmax⟩ := (State.rxStores_len b hs).mp h
    omega
  case accept => intro hs _ _; rw [s.storeIndex_len hs]; rfl
  case dropOvf => intro hs hovf; exact absurd hovf ((State.rxStores_body b hs).mp h)
  case complete => intro hs _ _; rw [s.storeIndex_body hs, dispatch_eq]; rfl
  case progress => intro hs _ _; rw [s.storeIndex_body hs]; rfl

/-- A byte that is not stored leaves the scratch. -/
theorem rxByteWith_rxBuf_of_not_rxStores {b : Byte} {s : State} (h : ¬ s.rxStores b) :
    (rxByteWith Config.hw b s).rxBuf = s.rxBuf := by
  obtain ⟨r, hr | hr⟩ := rxByteWith_of_not_rxStores h <;> rw [hr] <;> rfl

/-- `BufRead` after RX_BYTE stores its byte: the store index reads as the byte, any other as before. -/
theorem rxByteWith_bufRead_of_rxStores {b : Byte} {s : State} (h : s.rxStores b) (a : Nat) :
    (rxByteWith Config.hw b s).bufRead a = if a = s.storeIndex then b else s.bufRead a :=
  (State.bufRead_congr (s := s.store b) (rxByteWith_rxBuf_of_rxStores h)
    (rxByteWith_sameSurroundings Config.hw b s).rxDraw a).trans (s.bufRead_store b a)

/-- RX_BYTE leaves every scratch index but the store index. -/
theorem rxByteWith_bufRead_of_ne {b : Byte} {s : State} {a : Nat} (ha : a ≠ s.storeIndex) :
    (rxByteWith Config.hw b s).bufRead a = s.bufRead a := by
  by_cases h : s.rxStores b
  · rw [rxByteWith_bufRead_of_rxStores h, if_neg ha]
  · exact State.bufRead_congr (rxByteWith_rxBuf_of_not_rxStores h)
      (rxByteWith_sameSurroundings Config.hw b s).rxDraw a

/-- RX_BYTE writes rx_len only where it accepts a length byte (R25, R153). -/
theorem rxByteWith_rxLen {b : Byte} {s : State} (h : ¬ (s.rxState = .len ∧ s.rxStores b)) :
    (rxByteWith Config.hw b s).rxLen = s.rxLen := by
  apply rxByteWith_elim (P := fun t => t.rxLen = s.rxLen)
  case accept =>
    intro hs hmin hmax
    exact absurd ⟨hs, (State.rxStores_len b hs).mpr ⟨hmin, hmax⟩⟩ h
  case complete => intros; rw [dispatch_eq]; rfl
  all_goals intros; rfl

/-- RX_BYTE writes link_ok only where it stores the byte that completes a frame (R28, R156). -/
theorem rxByteWith_linkOk {b : Byte} {s : State}
    (h : ¬ (s.rxState = .body ∧ s.rxStores b ∧ s.completes)) :
    (rxByteWith Config.hw b s).linkOk = s.linkOk := by
  by_cases hstores : s.rxStores b
  · by_contra hne
    obtain ⟨hbody, hcomp, -⟩ := rxByteWith_linkOk_ne hne
    exact h ⟨hbody, hstores, hcomp⟩
  · obtain ⟨r, hr | hr⟩ := rxByteWith_of_not_rxStores hstores <;> rw [hr] <;> rfl

/-- Settles O36. -/
theorem rxByteFrame : Obligations.RxByteFrame := by
  intro b s t h
  obtain ⟨hdraw, hports, hinbox⟩ := exec_sameSurroundings h
  cases (exec_rxByte b s).symm.trans h
  exact ⟨rxByteWith_crcAcc Config.hw b s, hdraw, hports, hinbox, rxByteWith_rxLen,
    rxByteWith_linkOk, fun _ => rxByteWith_bufRead_of_ne,
    fun hstores => (rxByteWith_bufRead_of_rxStores hstores _).trans (if_pos rfl),
    rxByteWith_rxBuf_of_not_rxStores⟩

end Sys2Proof.Machine
end

section
/-! O24. The stream bit of every channel bit that PACK emits (spec 20_memory.md R42; 41_frame_codec.md R110, R113). -/

namespace Sys2Proof.Machine

theorem exec_pack (ch : Vector Lane 16) (s : State) :
    exec (.pack ch) s = .next (s.emit (pack ch).toList) := rfl

/-- Bit `k mod 8` of byte `k div 8` of packed channels is stream bit `k`, so at `k = 11*i + j` it is bit `j` of
channel `i` (R42). -/
theorem pack_getLsbD {w : Nat} (ch : Vector (BitVec w) 16) {i j : Nat} (hi : i < 16) (hj : j < 11) :
    ((pack ch).toList.getD ((11 * i + j) / 8) 0).getLsbD ((11 * i + j) % 8) = ch[i].getLsbD j := by
  have hk : 11 * i + j < 176 := by omega
  exact (streamBytes_getLsbD (packStream ch) _ hk).trans (packStream_getLsbD ch i j hi hj)

/-- Settles O24. -/
theorem packPlacesEveryChannelBit : Obligations.PackPlacesEveryChannelBit := fun ch s =>
  ⟨(pack ch).toList, exec_pack ch s, (pack ch).length_toList, fun _ _ hi hj => pack_getLsbD ch hi hj⟩

end Sys2Proof.Machine
end

section
/-! O51 and O52. The requests with no side effect (spec 20_memory.md R47): each only answers, with a response that does
not depend on the state. -/

namespace Sys2Proof.Machine

/-- Settles O51. -/
theorem requestsWithoutSideEffectWriteNoState :
    Obligations.RequestsWithoutSideEffectWriteNoState := by
  intro i s t hi h
  obtain ⟨r, rfl, -⟩ := eq_respond_of_writesNoState h hi
  exact ⟨rfl, State.bufRead_congr rfl rfl⟩

/-- Settles O52: the second answer replaces the first by the same response. -/
theorem requestsWithoutSideEffectAreIdempotent :
    Obligations.RequestsWithoutSideEffectAreIdempotent := by
  intro i s t hi h
  obtain ⟨r, rfl, hr⟩ := eq_respond_of_writesNoState h hi
  rw [hr, State.respond_respond]

end Sys2Proof.Machine
end

section
/-! O5 and O6. What a step does with each kind of next input but a reset (spec 20_memory.md R46; 60_exceptions.md
R211). -/

namespace Sys2Proof.Machine

/-- Settles O5. -/
theorem stepRunsTheDecodedRequest : Obligations.StepRunsTheDecodedRequest :=
  fun _ _ _ => step_request

/-- Settles O6. -/
theorem idleAndPortStepsTouchNoOtherField : Obligations.IdleAndPortStepsTouchNoOtherField :=
  ⟨fun _ => step_nil, fun _ _ _ => step_drive⟩

end Sys2Proof.Machine
end

section
/-! SUPPORT and O11. The row of the request word that each operation code selects (spec
30_encoding.md R60, R63). -/

namespace Sys2Proof

/-! ### One equation per row of the operation code (R63) -/

theorem decodeRequest_nop {r : Request} (h : r.op = 0x0) : decodeRequest r = .nop := by
  simp [decodeRequest, h]

theorem decodeRequest_crcInit {r : Request} (h : r.op = 0x1) : decodeRequest r = .crcInit := by
  simp [decodeRequest, h]

theorem decodeRequest_crcByte {r : Request} (h : r.op = 0x2) : decodeRequest r = .crcByte r.b := by
  simp [decodeRequest, h]

theorem decodeRequest_pack {r : Request} (h : r.op = 0x3) : decodeRequest r = .pack r.ch := by
  simp [decodeRequest, h]

theorem decodeRequest_unpack {r : Request} (h : r.op = 0x4) : decodeRequest r = .unpack r.pk := by
  simp [decodeRequest, h]

theorem decodeRequest_encRc {r : Request} (h : r.op = 0x5) : decodeRequest r = .encRc r.ch := by
  simp [decodeRequest, h]

theorem decodeRequest_encCmd {r : Request} (h : r.op = 0x6) :
    decodeRequest r = .encCmd r.b r.n r.pay := by
  simp [decodeRequest, h]

theorem decodeRequest_rxByte {r : Request} (h : r.op = 0x7) : decodeRequest r = .rxByte r.b := by
  simp [decodeRequest, h]

/-- Codes 0x8 to 0xF are reserved (R63, R191). -/
theorem decodeRequest_reserved {r : Request} (h : 8 ≤ r.op.toNat) :
    decodeRequest r = .reserved (r.op.extractLsb' 0 3) := by
  unfold decodeRequest
  split
  case h_9 => rfl
  all_goals omega

/-- The low three bits of OP are those of the word. -/
theorem Request.op_low (r : Request) : r.op.extractLsb' 0 3 = r.word.extractLsb' 0 3 := by
  ext i hi
  simp [Request.op]

/-- Settles O11: the nine rows, by OP. -/
theorem opAloneSelectsTheOperation : Obligations.OpAloneSelectsTheOperation := by
  intro r
  split_ifs with h0 h1 h2 h3 h4 h5 h6 h7
  · exact decodeRequest_nop h0
  · exact decodeRequest_crcInit h1
  · exact decodeRequest_crcByte h2
  · exact decodeRequest_pack h3
  · exact decodeRequest_unpack h4
  · exact decodeRequest_encRc h5
  · exact decodeRequest_encCmd h6
  · exact decodeRequest_rxByte h7
  · rw [← r.op_low]
    have : 8 ≤ r.op.toNat := by change 8 ≤ (r.word.extractLsb' 0 4).toNat; bv_omega
    exact decodeRequest_reserved this

end Sys2Proof
end

section
/-! SUPPORT and O12. The row of the wire frame that each type byte selects, and decoding as the
inverse of encoding (spec 30_encoding.md R60, R63, R70, R74). -/

namespace Sys2Proof

/-- The frame row of a type, with the frame's bytes (R74). -/
def FrameType.instr (t : FrameType) (f : List Byte) : Instr :=
  match t with
  | .rcChannels => .frameRcChannels f
  | .mspCommand => .frameMspCommand f
  | .linkStatistics => .frameLinkStatistics f
  | .batterySensor => .frameBatterySensor f
  | .attitude => .frameAttitude f
  | .flightMode => .frameFlightMode f
  | .unknown => .frameUnknown f

theorem instrOfFrame_eq (f : List Byte) :
    instrOfFrame f = (FrameType.ofByte (frameType f)).instr f := by
  unfold instrOfFrame
  cases FrameType.ofByte (frameType f) <;> rfl

/-- A complete frame decodes to the row of its type. -/
theorem decode_frame {t : FrameType} {f : List Byte} (h : FrameOfType t f) :
    decode (.frame f) = .ok (t.instr f) := by
  obtain ⟨hcomplete, htype⟩ := h
  exact (decodeFrame_ok_iff f _).mpr ⟨hcomplete, by rw [instrOfFrame_eq, htype]⟩

/-! ### The reserved codes and their low three bits (R191) -/

theorem reservedCode_ge : ∀ op : BitVec 3, 8 ≤ (0x8 ||| op.setWidth 4 : BitVec 4).toNat := by
  decide

theorem reservedCode_low :
    ∀ op : BitVec 3, (0x8 ||| op.setWidth 4 : BitVec 4).extractLsb' 0 3 = op := by
  decide

/-! ### A composed request word (R60), and the rows whose operands stand in it -/

section
variable (b : Byte) (n : BitVec 6) (ch : Vector Lane 16) (pk : Vector Byte 22)
  (pay : Vector Byte Config.cmdMaxPayload)

theorem Request.op_requestWord (op : BitVec 4) :
    Request.op ⟨requestWord op b n, ch, pk, pay⟩ = op := requestWord_op op b n

theorem Request.b_requestWord (op : BitVec 4) :
    Request.b ⟨requestWord op b n, ch, pk, pay⟩ = b := requestWord_b op b n

theorem Request.n_requestWord (op : BitVec 4) :
    Request.n ⟨requestWord op b n, ch, pk, pay⟩ = n := requestWord_n op b n

theorem decodeRequest_requestWord_crcByte :
    decodeRequest ⟨requestWord 0x2 b n, ch, pk, pay⟩ = .crcByte b := by
  rw [decodeRequest_crcByte (Request.op_requestWord ..), Request.b_requestWord]

theorem decodeRequest_requestWord_encCmd :
    decodeRequest ⟨requestWord 0x6 b n, ch, pk, pay⟩ = .encCmd b n pay := by
  rw [decodeRequest_encCmd (Request.op_requestWord ..), Request.b_requestWord,
    Request.n_requestWord]

theorem decodeRequest_requestWord_rxByte :
    decodeRequest ⟨requestWord 0x7 b n, ch, pk, pay⟩ = .rxByte b := by
  rw [decodeRequest_rxByte (Request.op_requestWord ..), Request.b_requestWord]

theorem decodeRequest_requestWord_reserved (op : BitVec 3) :
    decodeRequest ⟨requestWord (0x8 ||| op.setWidth 4) b n, ch, pk, pay⟩ = .reserved op := by
  rw [decodeRequest_reserved (by rw [Request.op_requestWord]; exact reservedCode_ge op),
    Request.op_requestWord, reservedCode_low]

end

/-- Settles O12: a composed request word has the operation code, and the operands, it was composed
of; a well-formed frame row carries a complete frame of its type. -/
theorem decodeUndoesEncode : Obligations.DecodeUndoesEncode := by
  intro i hwf
  cases i with
  | nop => exact congrArg Except.ok (decodeRequest_nop (requestWord_op 0x0 0 0))
  | crcInit => exact congrArg Except.ok (decodeRequest_crcInit (requestWord_op 0x1 0 0))
  | crcByte b => exact congrArg Except.ok (decodeRequest_requestWord_crcByte b 0 _ _ _)
  | pack ch => exact congrArg Except.ok (decodeRequest_pack (requestWord_op 0x3 0 0))
  | unpack pk => exact congrArg Except.ok (decodeRequest_unpack (requestWord_op 0x4 0 0))
  | encRc ch => exact congrArg Except.ok (decodeRequest_encRc (requestWord_op 0x5 0 0))
  | encCmd fn n pay => exact congrArg Except.ok (decodeRequest_requestWord_encCmd fn n _ _ pay)
  | rxByte b => exact congrArg Except.ok (decodeRequest_requestWord_rxByte b 0 _ _ _)
  | reserved op => exact congrArg Except.ok (decodeRequest_requestWord_reserved 0 0 _ _ _ op)
  | frameRcChannels f | frameMspCommand f | frameLinkStatistics f | frameBatterySensor f
  | frameAttitude f | frameFlightMode f | frameUnknown f =>
    exact decode_frame (of_decide_eq_true hwf)

end Sys2Proof
end

section
/-! SUPPORT and O13. The fields of an envelope (spec 30_encoding.md R70, R74, R75; 43_framer.md
R160). -/

namespace Sys2Proof

open Sys2Proof.Machine

/-! ### Slices -/

/-- The slice of a middle part, from its first index to its last. -/
theorem slice_append_append {i j : Nat} (pre mid post : List Byte) (hi : pre.length = i)
    (hj : mid.length = j + 1 - i) : slice (pre ++ mid ++ post) i j = mid := by
  unfold slice
  rw [← hj, ← hi, List.append_assoc, List.drop_left, List.take_left]

/-! ### The fields of an envelope -/

section
variable (ty : Byte) {l : List Byte}

theorem frameLen_envelope_toNat (h : l.length ≤ 253) :
    (frameLen (envelope ty l)).toNat = l.length + 2 := by
  rw [frameLen_envelope, BitVec.toNat_ofNat]
  omega

theorem framePayload_envelope (h : l.length ≤ 253) : framePayload (envelope ty l) = l := by
  unfold framePayload
  rw [frameLen_envelope_toNat ty h]
  exact slice_append_append [_, _, ty] l _ rfl (by omega)

theorem frameCovered_envelope (h : l.length ≤ 253) : frameCovered (envelope ty l) = ty :: l := by
  unfold frameCovered
  rw [frameLen_envelope_toNat ty h]
  exact slice_append_append [_, _] (ty :: l) _ rfl rfl

theorem frameCrc_envelope (h : l.length ≤ 253) : frameCrc (envelope ty l) = crc8 (ty :: l) := by
  unfold frameCrc
  rw [frameLen_envelope_toNat ty h]
  simp [byteAt, envelope]

/-- The checksum of an envelope is right (R160). -/
theorem frameCrcOk_envelope (h : l.length ≤ 253) : frameCrcOk (envelope ty l) = true := by
  unfold frameCrcOk
  rw [frameCovered_envelope ty h, frameCrc_envelope ty h, beq_self_eq_true]

/-- An envelope counts the bytes after its length byte (R70). -/
theorem frameLenTold_envelope (h : l.length ≤ 253) : FrameLenTold (envelope ty l) := by
  unfold FrameLenTold
  rw [envelope_length, frameLen_envelope_toNat ty h]

/-- The framer accepts an envelope of at most 60 payload bytes (R75). -/
theorem frameComplete_envelope (h : l.length ≤ 60) : FrameComplete (envelope ty l) := by
  have hlen := frameLen_envelope_toNat ty (l := l) (by omega)
  refine ⟨?_, rfl, ⟨?_, ?_⟩, frameLenTold_envelope ty (by omega)⟩
  · rw [FrameHasHeader, envelope_length]; omega
  · rw [hlen]; exact Nat.le_add_left 2 _
  · rw [hlen]; exact Nat.add_le_add_right h 2

end

/-- The row that each type byte selects (R74). -/
theorem instrOfFrame_eq_ite (f : List Byte) :
    instrOfFrame f =
      (if frameType f = 0x16 then .frameRcChannels f
      else if frameType f = 0x7A then .frameMspCommand f
      else if frameType f = 0x14 then .frameLinkStatistics f
      else if frameType f = 0x08 then .frameBatterySensor f
      else if frameType f = 0x1E then .frameAttitude f
      else if frameType f = 0x21 then .frameFlightMode f
      else .frameUnknown f) := by
  rw [instrOfFrame_eq, FrameType.ofByte]
  simp only [apply_ite (FrameType.instr · f)]
  rfl

/-- Settles O13. -/
theorem envelopeFieldsReadBack : Obligations.EnvelopeFieldsReadBack := by
  intro ty l h
  have hlong : l.length ≤ 253 := by omega
  exact ⟨(decodeFrame_ok_iff _ _).mpr ⟨frameComplete_envelope ty h, rfl⟩,
    instrOfFrame_eq_ite (envelope ty l), frameType_envelope ty l, framePayload_envelope ty hlong,
    frameCrcOk_envelope ty hlong⟩

end Sys2Proof
end

section
/-! O10. The words and the frame of spec 95_test_vectors.md, through the rows of the decoder. -/

namespace Sys2Proof

/-- Settles O10. -/
theorem wordsTheSpecWritesOutDecode : Obligations.WordsTheSpecWritesOutDecode :=
  ⟨decodeRequest_crcInit rfl, decodeRequest_crcByte rfl, decodeRequest_rxByte rfl,
    decodeRequest_encCmd rfl, decodeRequest_pack rfl, decodeRequest_nop rfl,
    decodeRequest_reserved (by decide), decode_frame (t := .rcChannels) (by decide)⟩

end Sys2Proof
end

section
/-! SUPPORT, O14 and O28. The frames the block encodes (spec 30_encoding.md R70 to R72;
41_frame_codec.md R115, R116, R120 to R122). -/

namespace Sys2Proof.Machine

/-! ### The encoded frames are envelopes (R71, R72) -/

theorem rcFrame_eq_envelope {w : Nat} (ch : Vector (BitVec w) 16) :
    rcFrame ch = envelope Config.typeRcChannels (pack ch).toList := by
  rw [rcFrame, envelope, (pack ch).length_toList]
  rfl

theorem length_cmdBody_tail (p : Params) (fn : Byte) (l : List Byte) :
    (cmdBody p fn l).tail.length = l.length + 4 := by
  simp [cmdBody]

theorem cmdFrame_eq_envelope (p : Params) (fn : Byte) (l : List Byte) :
    cmdFrame p fn l = envelope Config.typeMspCommand (cmdBody p fn l).tail := by
  rw [cmdFrame, envelope, length_cmdBody_tail, Nat.add_comm 6]
  rfl

/-! ### The operands of ENC_CMD -/

theorem length_payloadOperand {n : BitVec 6} (pay : Vector Byte Config.cmdMaxPayload)
    (hn : n.toNat ≤ Config.cmdMaxPayload) : (payloadOperand n pay).length = n.toNat := by
  simp [payloadOperand, hn]

/-- The command body over the payload operand (R72). -/
theorem cmdBody_payloadOperand (p : Params) (fn : Byte) {n : BitVec 6}
    (pay : Vector Byte Config.cmdMaxPayload) (hn : n.toNat ≤ Config.cmdMaxPayload) :
    cmdBody p fn (payloadOperand n pay)
      = [0x7A, p.cmdDest, p.cmdOrigin, fn, n.setWidth 8] ++ payloadOperand n pay := by
  rw [cmdBody, length_payloadOperand pay hn, BitVec.ofNat_toNat]
  rfl

/-! ### What the encoders answer (R116, R122) -/

theorem exec_encRc (ch : Vector Lane 16) (s : State) :
    exec (.encRc ch) s = .next (s.emit (rcFrame ch)) := rfl

theorem exec_encCmd_of_le (fn : Byte) {n : BitVec 6} (pay : Vector Byte Config.cmdMaxPayload)
    (s : State) (hn : n.toNat ≤ Config.cmdMaxPayload) :
    exec (.encCmd fn n pay) s = .next (s.emit (cmdFrame Config.hw fn (payloadOperand n pay))) :=
  congrArg Host.Outcome.next ((encCmdWith_eq Config.hw fn n pay s).trans
    (congrArg s.respond (if_neg (not_lt.mpr hn))))

/-- An encoder that accepts its operands answers an envelope whose length byte can count it. -/
theorem encoder_emits_envelope {i : Instr} (s : State)
    (hi : (∃ ch, i = .encRc ch) ∨ ∃ fn n pay, i = .encCmd fn n pay ∧ n.toNat ≤ 57) :
    ∃ ty l, l.length ≤ 253 ∧ exec i s = .next (s.emit (envelope ty l)) := by
  obtain ⟨ch, rfl⟩ | ⟨fn, n, pay, rfl, hn⟩ := hi
  · refine ⟨_, _, ?_, (exec_encRc ch s).trans (by rw [rcFrame_eq_envelope])⟩
    rw [(pack ch).length_toList]
    decide
  · refine ⟨_, _, ?_, (exec_encCmd_of_le fn pay s hn).trans (by rw [cmdFrame_eq_envelope])⟩
    rw [length_cmdBody_tail, length_payloadOperand pay hn]
    omega

/-- Settles O14: every encoded frame is an envelope, whose fields say it. -/
theorem everyEncodedFrameHasTheEnvelope : Obligations.EveryEncodedFrameHasTheEnvelope := by
  intro i s t r hi hexec hr
  obtain ⟨ty, l, hl, hemit⟩ := encoder_emits_envelope s hi
  cases hemit.symm.trans hexec
  cases hr
  refine ⟨rfl, frameLenTold_envelope ty hl, ?_⟩
  exact (frameCrc_envelope ty hl).trans (congrArg crc8 (frameCovered_envelope ty hl).symm)

/-- Settles O28. -/
theorem encCmdEmitsTheCommandFrame : Obligations.EncCmdEmitsTheCommandFrame := by
  intro fn n pay s hn
  have hpay : (payloadOperand n pay).length = n.toNat := length_payloadOperand pay hn
  refine ⟨_, _, cmdBody_payloadOperand Config.hw fn pay hn, ?_, ?_,
    exec_encCmd_of_le fn pay s hn⟩
  · rw [cmdFrame, hpay]; rfl
  · rw [cmdFrame_eq_envelope, envelope_length, length_cmdBody_tail, hpay]
    omega

end Sys2Proof.Machine
end

section
/-! SUPPORT, O20 and O21. The lists of checksum 0, and the linearity of the checksum (spec
40_checksum.md R101, R105). -/

namespace Sys2Proof

/-! ### The lists of checksum 0 -/

/-- A byte equal to the accumulator clears it (R103). -/
@[simp] theorem crcStep_self (a : Byte) : crcStep a a = 0x00 := by
  rw [crcStep_xor, BitVec.xor_self]
  rfl

theorem crc8_replicate_zero (n : Nat) : crc8 (List.replicate n 0x00) = 0x00 := by
  induction n with
  | zero => rfl
  | succ n ih => rw [List.replicate_succ, crc8, crcFold_cons, crcStep_self]; exact ih

/-- Settles O20: the appended byte meets an accumulator equal to it. -/
theorem appendedChecksumYieldsZero : Obligations.AppendedChecksumYieldsZero :=
  ⟨crc8_replicate_zero, fun l => (crcFold_append 0 l _).trans (crcStep_self (crc8 l))⟩

/-! ### Linearity of an iteration, a step and the fold -/

/-- One iteration as a single XOR: POLY if the high bit is set, else 0. -/
theorem crcShift_eq (a : Byte) :
    crcShift a = a <<< 1 ^^^ if a.getLsbD 7 then Config.poly else 0 := by
  unfold crcShift
  split <;> simp

/-- One iteration is linear: the high bit of an XOR is the XOR of the high bits, and POLY twice cancels. -/
theorem crcShift_xor (a b : Byte) : crcShift (a ^^^ b) = crcShift a ^^^ crcShift b := by
  have hmask : ∀ p q : Bool, (if (p ^^ q) then Config.poly else 0)
      = (if p then Config.poly else 0) ^^^ if q then Config.poly else 0 := by decide
  simp only [crcShift_eq, BitVec.getLsbD_xor, BitVec.shiftLeft_xor_distrib, hmask]
  ac_rfl

theorem crcShifts_xor (k : Nat) (a b : Byte) :
    crcShifts k (a ^^^ b) = crcShifts k a ^^^ crcShifts k b := by
  induction k generalizing a b with
  | zero => rfl
  | succ k ih => simp only [crcShifts, crcShift_xor, ih]

theorem crcStep_xor_xor (a b c d : Byte) :
    crcStep (a ^^^ b) (c ^^^ d) = crcStep a c ^^^ crcStep b d := by
  unfold crcStep
  rw [← crcShifts_xor]
  congr 1
  ac_rfl

/-- The fold is linear in the accumulator and the list together. -/
theorem crcFold_zipWith_xor (a b : Byte) {l m : List Byte} (h : l.length = m.length) :
    crcFold (a ^^^ b) (List.zipWith (· ^^^ ·) l m) = crcFold a l ^^^ crcFold b m := by
  induction l generalizing a b m with
  | nil => cases List.length_eq_zero_iff.mp h.symm; rfl
  | cons x l ih =>
    cases m with
    | nil => cases h
    | cons y m =>
      rw [List.zipWith_cons_cons, crcFold_cons, crcStep_xor_xor, ih _ _ (Nat.succ.inj h)]
      rfl

/-- Settles O21. -/
theorem checksumIsLinear : Obligations.ChecksumIsLinear :=
  fun _ _ => crcFold_zipWith_xor 0 0

end Sys2Proof
end

section
/-! O17 and O18. The two operations of the checksum unit (spec 40_checksum.md R102, R103). -/

namespace Sys2Proof.Machine

/-- Settles O17. -/
theorem crcInitClearsTheAccumulator : Obligations.CrcInitClearsTheAccumulator :=
  ⟨fun b n _ _ _ => decodeRequest_crcInit (requestWord_op 0x1 b n), exec_crcInit⟩

/-- Settles O18. -/
theorem crcByteFoldsTheByte : Obligations.CrcByteFoldsTheByte :=
  ⟨decodeRequest_requestWord_crcByte, fun b s => ⟨_, exec_crcByte b s, rfl, rfl⟩,
    crcStep_self 0x00, crcStep_self, rfl⟩

end Sys2Proof.Machine
end

section
/-! SUPPORT and O19. The accumulator after a run of inputs that starts no new checksum (spec 10_state.md R23;
40_checksum.md R104). -/

namespace Sys2Proof.Machine

/-- Every instruction completes (R203). -/
theorem exec_completes (i : Instr) (s : State) : ∃ t, exec i s = .next t := by
  cases i <;> exact ⟨_, rfl⟩

/-- A request other than CRC_INIT folds its operand, if it is a CRC_BYTE, and else leaves the
accumulator (R23). -/
theorem exec_decodeRequest_crcAcc {r : Request} {s t : State} (hr : decodeRequest r ≠ .crcInit)
    (h : exec (decodeRequest r) s = .next t) :
    t.crcAcc = crcFold s.crcAcc (crcOperand (.request r)).toList := by
  have hacc := onlyChecksumOperationsWriteTheAccumulator _ _ _ h
  cases hi : decodeRequest r with
  | crcInit => exact absurd hi hr
  | _ => rw [hi] at hacc; simp only [crcOperand, hi]; exact hacc

/-- A step that takes an input which starts no new checksum folds that input's operand. -/
theorem step_folds {s : State} {x : Input} {rest : List Input} (hin : s.inbox = x :: rest)
    (hx : keepsChecksum x) :
    ∃ t, step s = .next t ∧ t.inbox = rest
      ∧ t.crcAcc = crcFold s.crcAcc (crcOperand x).toList := by
  cases x with
  | reset => exact hx.elim
  | drive p => exact ⟨_, step_drive hin, rfl, rfl⟩
  | request r =>
    obtain ⟨t, ht⟩ := exec_completes (decodeRequest r) { s with inbox := rest }
    exact ⟨t, (step_request hin).trans ht, (exec_sameSurroundings ht).inbox,
      exec_decodeRequest_crcAcc (s := { s with inbox := rest }) hx ht⟩

theorem steps_succ {n : Nat} {s t : State} (h : step s = .next t) :
    steps (n + 1) s = steps n t := by
  simp only [steps, h]

/-- A run over inputs that start no new checksum folds their operands in order. -/
theorem steps_fold {s : State} {l : List Input} (hin : s.inbox = l) (hl : ∀ x ∈ l, keepsChecksum x) :
    ∃ t, steps l.length s = .next t ∧ t.crcAcc = crcFold s.crcAcc (l.filterMap crcOperand) := by
  induction l generalizing s with
  | nil => exact ⟨s, rfl, rfl⟩
  | cons x l ih =>
    obtain ⟨hx, hl⟩ := List.forall_mem_cons.mp hl
    obtain ⟨u, hstep, hu, hacc⟩ := step_folds hin hx
    obtain ⟨t, hrun, ht⟩ := ih hu hl
    refine ⟨t, (steps_succ hstep).trans hrun, ?_⟩
    rw [ht, hacc]
    cases hop : crcOperand x <;> simp [hop]

/-- Settles O19: CRC_INIT clears the accumulator and the rest of the run folds into it. -/
theorem checksumOfAnInterleavedSequence : Obligations.ChecksumOfAnInterleavedSequence := by
  intro s r rest hin hr hrest
  have hinit : step s = .next ({ s with inbox := rest }.writeCrc 0x00) := by
    rw [step_request hin, hr, exec_crcInit]
  obtain ⟨t, hrun, ht⟩ := steps_fold (s := { s with inbox := rest }.writeCrc 0x00) rfl hrest
  exact ⟨t, (steps_succ hinit).trans hrun, ht⟩

end Sys2Proof.Machine
end

section
/-! SUPPORT and O22. A byte as a polynomial over GF(2), and the checksum step as a remainder (spec
40_checksum.md R101, R105). -/

namespace Sys2Proof.Machine

open Polynomial

/-! ### The operations of a byte, on its polynomial -/

/-- The coefficients are the bits; no byte has a bit past its eighth. -/
theorem gf2Poly_coeff (v : Byte) (n : Nat) :
    (gf2Poly v).coeff n = if v.getLsbD n then 1 else 0 := by
  have hbit : ∀ i, (if v.getLsbD i then X ^ i else 0 : (ZMod 2)[X]).coeff n
      = if n = i then (if v.getLsbD i then 1 else 0) else 0 := fun i => by
    split <;> simp [coeff_X_pow]
  simp only [gf2Poly, finsetSum_coeff, hbit, Finset.sum_ite_eq, Finset.mem_range]
  by_cases hn : n < 8
  · rw [if_pos hn]
  · rw [if_neg hn, v.getLsbD_of_ge n (not_lt.mp hn)]
    rfl

theorem gf2Poly_degree_lt (v : Byte) : (gf2Poly v).degree < (8 : Nat) :=
  (degree_lt_iff_coeff_zero _ _).mpr fun n hn => by
    rw [gf2Poly_coeff, v.getLsbD_of_ge n hn]
    rfl

/-- XOR of bytes is addition of polynomials. -/
theorem gf2Poly_xor (a b : Byte) : gf2Poly (a ^^^ b) = gf2Poly a + gf2Poly b := by
  ext n
  rw [coeff_add, gf2Poly_coeff, gf2Poly_coeff, gf2Poly_coeff, BitVec.getLsbD_xor]
  cases a.getLsbD n <;> cases b.getLsbD n <;> rfl

/-- Multiplying by x shifts the byte left, with the high bit as the term x^8. -/
theorem gf2Poly_mul_X (a : Byte) :
    gf2Poly a * X = gf2Poly (a <<< 1) + if a.getLsbD 7 then X ^ 8 else 0 := by
  ext n
  cases n with
  | zero => cases a.getLsbD 7 <;> simp [gf2Poly_coeff]
  | succ n =>
    have hbit : (a <<< 1).getLsbD (n + 1) = (decide (n + 1 < 8) && a.getLsbD n) := by
      simp [BitVec.getLsbD_shiftLeft]
    rw [coeff_add, coeff_mul_X, gf2Poly_coeff, gf2Poly_coeff, hbit]
    obtain hn | rfl | hn := lt_trichotomy n 7
    · have hlt : n + 1 < 8 := by omega
      cases a.getLsbD 7 <;> simp [hlt, coeff_X_pow, hlt.ne]
    · cases a.getLsbD 7 <;> simp
    · have hne : n + 1 ≠ 8 := by omega
      rw [a.getLsbD_of_ge n hn]
      cases a.getLsbD 7 <;> simp [coeff_X_pow, hne]

/-- The checksum polynomial is x^8 and the bits of POLY (R2, R101). -/
theorem crcPolynomial_eq : crcPolynomial = X ^ 8 + gf2Poly Config.poly := by
  have hpoly : gf2Poly Config.poly = 1 + X ^ 2 + X ^ 4 + X ^ 6 + X ^ 7 := by
    simp [gf2Poly, Finset.sum_range_succ, Config.poly]
  rw [crcPolynomial, hpoly]
  ring

theorem crcPolynomial_monic : crcPolynomial.Monic := by
  rw [crcPolynomial_eq]
  exact monic_X_pow_add (gf2Poly_degree_lt _)

theorem gf2Poly_degree_lt_crcPolynomial (v : Byte) : (gf2Poly v).degree < crcPolynomial.degree := by
  have hlow : (gf2Poly Config.poly).degree < (X ^ 8 : (ZMod 2)[X]).degree := by
    rw [degree_X_pow]; exact gf2Poly_degree_lt _
  rw [crcPolynomial_eq, degree_add_eq_left_of_degree_lt hlow, degree_X_pow]
  exact gf2Poly_degree_lt v

/-! ### The iterations and the step (R101) -/

/-- Multiplying by x is an iteration, with the checksum polynomial added if the high bit is set:
POLY twice cancels. -/
theorem gf2Poly_mul_X_eq_crcShift (a : Byte) :
    gf2Poly a * X = gf2Poly (crcShift a) + if a.getLsbD 7 then crcPolynomial else 0 := by
  rw [gf2Poly_mul_X, crcShift]
  split
  · have hpoly := CharTwo.add_self_eq_zero (gf2Poly Config.poly)
    rw [gf2Poly_xor, crcPolynomial_eq]
    linear_combination -hpoly
  · rfl

theorem crcPolynomial_dvd_crcShift (a : Byte) :
    crcPolynomial ∣ gf2Poly a * X - gf2Poly (crcShift a) := by
  rw [gf2Poly_mul_X_eq_crcShift, add_sub_cancel_left]
  split
  · exact dvd_rfl
  · exact dvd_zero _

/-- The iterations have the residue of the product by a power of x. -/
theorem crcPolynomial_dvd_crcShifts (k : Nat) (a : Byte) :
    crcPolynomial ∣ gf2Poly a * X ^ k - gf2Poly (crcShifts k a) := by
  induction k generalizing a with
  | zero => simp [crcShifts]
  | succ k ih =>
    have hsum : gf2Poly a * X ^ (k + 1) - gf2Poly (crcShifts (k + 1) a)
        = (gf2Poly a * X - gf2Poly (crcShift a)) * X ^ k
          + (gf2Poly (crcShift a) * X ^ k - gf2Poly (crcShifts k (crcShift a))) := by
      rw [crcShifts]; ring
    rw [hsum]
    exact dvd_add ((crcPolynomial_dvd_crcShift a).mul_right _) (ih (crcShift a))

/-- Settles O22: the step has the residue of the product, and a degree small enough to be the remainder. -/
theorem crcStepIsThePolynomialRemainder : Obligations.CrcStepIsThePolynomialRemainder := by
  intro a b
  calc gf2Poly (crcStep a b)
      = gf2Poly (crcStep a b) %ₘ crcPolynomial :=
        ((modByMonic_eq_self_iff crcPolynomial_monic).mpr (gf2Poly_degree_lt_crcPolynomial _)).symm
    _ = (gf2Poly (a ^^^ b) * X ^ 8) %ₘ crcPolynomial :=
        (modByMonic_eq_of_dvd_sub crcPolynomial_monic
          (crcPolynomial_dvd_crcShifts 8 (a ^^^ b))).symm

end Sys2Proof.Machine
end

section
/-! SUPPORT, O25 and O26. UNPACK bit by bit, and the packer and the unpacker as inverses (spec 20_memory.md R42;
41_frame_codec.md R110 to R112, R114). -/

namespace Sys2Proof.Machine

theorem exec_unpack (pk : Vector Byte 22) (s : State) :
    exec (.unpack pk) s = .next (s.respond ⟨.ok, [], some (unpack pk), .none, none⟩) := rfl

/-- Bit `j` of channel `i` of a stream is stream bit `11*i + j` (R42, R111). -/
theorem streamChannels_getLsbD (x : BitVec 176) {i j : Nat} (hi : i < 16) (hj : j < 11) :
    (streamChannels x)[i].getLsbD j = x.getLsbD (11 * i + j) := by
  simp [streamChannels_getElem x i hi, hj]

/-- Settles O25: bit `j` of channel `i` is stream bit `11*i + j`, which one byte of PK holds. -/
theorem unpackReadsEveryChannelBit : Obligations.UnpackReadsEveryChannelBit := by
  intro pk s
  refine ⟨unpack pk, exec_unpack pk s, fun i j hi hj => ?_⟩
  have hk : 11 * i + j < 176 := by omega
  exact (streamChannels_getLsbD _ hi hj).trans (byteStream_getLsbD pk _ hk)

/-! ### The stream as the common form of channels and bytes -/

theorem byteStream_streamBytes (x : BitVec 176) : byteStream (streamBytes x) = x :=
  BitVec.eq_of_getLsbD_eq fun k hk =>
    (byteStream_getLsbD (streamBytes x) k hk).trans (streamBytes_getLsbD x k hk)

theorem packStream_streamChannels (x : BitVec 176) : packStream (streamChannels x) = x := by
  apply BitVec.eq_of_getLsbD_eq
  intro k hk
  have hi : k / 11 < 16 := by omega
  have hj : k % 11 < 11 := by omega
  rw [← Nat.div_add_mod k 11, packStream_getLsbD _ _ _ hi hj, streamChannels_getLsbD x hi hj]

theorem streamBytes_byteStream (pk : Vector Byte 22) : streamBytes (byteStream pk) = pk := by
  ext k hk j hj
  have hbit : 8 * k + j < 176 := by omega
  have hdiv : (8 * k + j) / 8 = k := by omega
  have hmod : (8 * k + j) % 8 = j := by omega
  have hbytes := streamBytes_getLsbD (byteStream pk) (8 * k + j) hbit
  rw [byteStream_getLsbD pk _ hbit, hdiv, hmod] at hbytes
  simpa [hk, hj] using hbytes

/-- Packing keeps the low 11 bits of each value, whatever the values' width (R110, R112). -/
theorem unpack_pack {w : Nat} (ch : Vector (BitVec w) 16) :
    unpack (pack ch) = ch.map (BitVec.setWidth 11) := by
  rw [unpack, pack, byteStream_streamBytes]
  ext i hi j hj
  rw [Vector.getElem_map, ← BitVec.getLsbD_eq_getElem, streamChannels_getLsbD _ hi hj,
    packStream_getLsbD ch i j hi hj]
  simp

theorem pack_unpack (pk : Vector Byte 22) : pack (unpack pk) = pk := by
  rw [pack, unpack, packStream_streamChannels, streamBytes_byteStream]

/-- Settles O26. That `pack` reads the low 11 bits alone follows from the two inverses. -/
theorem packAndUnpackAreInverse : Obligations.PackAndUnpackAreInverse := by
  refine ⟨fun ch => ?_, pack_unpack, fun w ch => ⟨?_, fun i hi => ?_⟩⟩
  · rw [unpack_pack]
    ext i hi : 1
    simp
  · have hlow : (ch.map fun v => BitVec.ofNat 11 (v.toNat % 2048)) = unpack (pack ch) := by
      rw [unpack_pack]
      ext i hi : 1
      apply BitVec.eq_of_toNat_eq
      simp
    rw [hlow, pack_unpack]
  · simp [unpack_pack]

end Sys2Proof.Machine
end

section
/-! O27 and O29. ENC_RC, and ENC_CMD on a payload that is too long (spec 30_encoding.md R71; 41_frame_codec.md R115,
R121). -/

namespace Sys2Proof.Machine

/-- Settles O27. -/
theorem encRcEmitsTheRcFrame : Obligations.EncRcEmitsTheRcFrame := by
  intro ch s
  refine ⟨rcFrame ch, exec_encRc ch s, ?_, rfl⟩
  rw [rcFrame_eq_envelope, envelope_length, Vector.length_toList]

/-- Settles O29. -/
theorem encCmdRefusesALongPayload : Obligations.EncCmdRefusesALongPayload := fun fn n pay s hn =>
  congrArg Host.Outcome.next ((encCmdWith_eq Config.hw fn n pay s).trans
    (congrArg s.respond (if_pos hn)))

end Sys2Proof.Machine
end

section
/-! SUPPORT. The framer fed the bytes of one complete frame from IDLE: the state after every part of it
(spec 43_framer.md R150 to R159). -/

namespace Sys2Proof.Machine

/-! ### Runs, and the step that takes one received byte -/

/-- A run of `n + 1` steps is a run of `n` steps and one more. -/
theorem steps_succ_last {n : Nat} {s t : State} (h : steps n s = .next t) :
    steps (n + 1) s = step t := by
  induction n generalizing s with
  | zero =>
    cases h
    cases ht : step t <;> simp only [steps, ht]
  | succ n ih =>
    obtain ⟨u, hstep, hrun⟩ := steps_succ_next h
    exact (steps_succ hstep).trans (ih hrun)

/-- A step whose next input is a received byte runs RX_BYTE on it. -/
theorem step_rxInputs_cons {s : State} {b : Byte} {l : List Byte} {rest : List Input}
    (h : s.inbox = rxInputs (b :: l) ++ rest) :
    step s = .next (rxByteWith Config.hw b { s with inbox := rxInputs l ++ rest }) := by
  rw [step_request h, rxByteRequest, Request.ofWord, decodeRequest_requestWord_rxByte, exec_rxByte]
  rfl

/-- The state after a sync byte in IDLE, with the inputs `inputs` still to come (R152). -/
def State.afterSync (s : State) (inputs : List Input) : State :=
  { s.bufWrite 0 Config.sync with
    inbox := inputs, rxIdx := 1, rxState := .len }.rxRespond .progress

theorem step_sync {s : State} {l : List Byte} {rest : List Input} (hidle : s.rxState = .idle)
    (hin : s.inbox = rxInputs (Config.sync :: l) ++ rest) :
    step s = .next (s.afterSync (rxInputs l ++ rest)) :=
  (step_rxInputs_cons hin).trans (congrArg _ (rxByteWith_sync Config.hw _ hidle))

/-! ### The scratch while a frame is collected -/

/-- The scratch holds the first `k` bytes of the frame `f`. -/
def Memory.Holds (m : Memory) (f : List Byte) (k : Nat) : Prop := ∀ i < k, m.find i = f[i]?

theorem Memory.holds_zero (m : Memory) (f : List Byte) : m.Holds f 0 :=
  fun i hi => absurd hi i.not_lt_zero

theorem Memory.Holds.write {m : Memory} {f : List Byte} {k : Nat} {b : Byte} (h : m.Holds f k)
    (hb : f[k]? = some b) : (m.write k b).Holds f (k + 1) := by
  intro i hi
  rw [Memory.find_write]
  split
  · next heq => rw [heq, hb]
  · next hne => exact h i (by omega)

/-- The frame that the last byte completes is the one whose other bytes the scratch holds (R150). -/
theorem State.frameWith_of_holds {s : State} {f : List Byte} {b : Byte}
    (h : s.rxBuf.Holds f s.rxIdx.toNat) (hlen : f.length = s.rxIdx.toNat + 1)
    (hb : f[s.rxIdx.toNat]? = some b) : s.frameWith b = f := by
  have hread : (List.range s.rxIdx.toNat).map s.bufRead = f.take s.rxIdx.toNat := by
    apply List.ext_getElem
    · simp [hlen]
    · intro i hi _
      have hi : i < s.rxIdx.toNat := by simpa using hi
      have hfi : s.rxBuf.find i = some f[i] := by rw [h i hi, List.getElem?_eq_getElem]
      simp [State.bufRead_of_find hfi]
  obtain ⟨hlt, rfl⟩ := List.getElem?_eq_some_iff.mp hb
  rw [State.frameWith, hread, List.take_append_getElem hlt, ← hlen, List.take_length]

/-! ### The states of the framer along a complete frame -/

/-- The bytes of a complete frame: a sync byte, a length byte, a body (R70, R75). -/
theorem frameComplete_eq_cons {f : List Byte} (h : FrameComplete f) :
    ∃ l, f = Config.sync :: frameLen f :: l := by
  obtain ⟨hheader, hsync, -, -⟩ := h
  match f, hheader, hsync with
  | a :: b :: l, _, hsync => cases hsync; exact ⟨l, rfl⟩

/-- The framer in BODY with the first `k` bytes of the frame `f` accepted, which the scratch `m` holds, and
the others still to come before the inputs `rest` (R156). -/
def State.collecting (s : State) (f : List Byte) (rest : List Input) (k : Nat) (m : Memory) : State :=
  { s with
    inbox := rxInputs (f.drop k) ++ rest
    rxState := .body
    rxLen := frameLen f
    rxIdx := BitVec.ofNat 7 k
    rxBuf := m
    response := some ⟨.ok, [], none, .progress, none⟩ }

section
variable {f : List Byte} {rest : List Input}

theorem State.collecting_rxIdx_toNat (s : State) {k : Nat} (m : Memory) (hf : FrameComplete f)
    (hk : k < f.length) : (s.collecting f rest k m).rxIdx.toNat = k := by
  obtain ⟨-, -, ⟨-, hmax⟩, htold⟩ := hf
  change (frameLen f).toNat ≤ 62 at hmax
  change (BitVec.ofNat 7 k).toNat = k
  rw [BitVec.toNat_ofNat]
  omega

/-- No byte of a complete frame exceeds the scratch capacity (R157). -/
theorem State.collecting_not_overflows (s : State) {k : Nat} (m : Memory) (hf : FrameComplete f)
    (hk : k < f.length) (inputs : List Input) :
    ¬ State.overflows Config.hw { s.collecting f rest k m with inbox := inputs } := by
  have hidx := s.collecting_rxIdx_toNat (rest := rest) m hf hk
  obtain ⟨-, -, ⟨-, hmax⟩, htold⟩ := hf
  change (frameLen f).toNat ≤ 62 at hmax
  change ¬ (s.collecting f rest k m).rxIdx.toNat + 1 > 64
  omega

/-- The framer completes a frame at the frame's last byte (R156). -/
theorem State.collecting_completes_iff (s : State) {k : Nat} (m : Memory) (hf : FrameComplete f)
    (hk : k < f.length) (inputs : List Input) :
    State.completes { s.collecting f rest k m with inbox := inputs } ↔ k + 1 = f.length := by
  have hidx := s.collecting_rxIdx_toNat (rest := rest) m hf hk
  obtain ⟨-, -, -, htold⟩ := hf
  change (s.collecting f rest k m).rxIdx.toNat + 1 = (frameLen f).toNat + 2 ↔ _
  omega

/-- A step that takes the next byte of the frame runs RX_BYTE in BODY. -/
theorem State.step_collecting (s : State) {k : Nat} (m : Memory) (hk : k < f.length) :
    step (s.collecting f rest k m)
      = .next (rxByteWith Config.hw f[k]
          { s.collecting f rest k m with inbox := rxInputs (f.drop (k + 1)) ++ rest }) :=
  step_rxInputs_cons (congrArg (rxInputs · ++ rest) (List.drop_eq_getElem_cons hk))

/-- A byte of the frame that is not its last is stored (R156). -/
theorem State.step_collecting_progress (s : State) {k : Nat} (m : Memory) (hf : FrameComplete f)
    (hk : k + 1 < f.length) :
    step (s.collecting f rest k m)
      = .next (s.collecting f rest (k + 1) (m.write k (f[k]'(Nat.lt_of_succ_lt hk)))) := by
  have hlt : k < f.length := Nat.lt_of_succ_lt hk
  rw [s.step_collecting m hlt,
    rxByteWith_progress _ _ _ rfl (s.collecting_not_overflows m hf hlt _)
      (mt (s.collecting_completes_iff m hf hlt _).mp hk.ne)]
  have hidx := s.collecting_rxIdx_toNat (rest := rest) m hf hlt
  simp only [hidx]
  rfl

/-- The last byte of the frame dispatches the frame, with the framer back in IDLE (R156, R160). -/
theorem State.step_collecting_last (s : State) {k : Nat} {m : Memory} (hf : FrameComplete f)
    (hm : m.Holds f k) (hk : k + 1 = f.length) :
    step (s.collecting f rest k m)
      = .next (dispatch Config.hw f
          { s with
            inbox := rest
            rxState := .idle
            rxLen := frameLen f
            rxIdx := 0
            rxBuf := m.write k (f[k]'(hk ▸ k.lt_succ_self)) }) := by
  have hlt : k < f.length := hk ▸ k.lt_succ_self
  have hidx := s.collecting_rxIdx_toNat (rest := rest) m hf hlt
  rw [s.step_collecting m hlt,
    rxByteWith_complete _ _ _ rfl (s.collecting_not_overflows m hf hlt _)
      ((s.collecting_completes_iff m hf hlt _).mpr hk),
    State.frameWith_of_holds (f := f) (hidx.symm ▸ hm) (by simp only [hidx, hk])
      (by simp only [hidx, List.getElem?_eq_getElem hlt]),
    List.drop_of_length_le hk.ge, dispatch_eq, dispatch_eq]
  simp only [hidx]
  rfl

/-- From IDLE, the sync byte and the length byte of a complete frame lead to BODY (R152, R153). -/
theorem steps_header {s : State} (hf : FrameComplete f) (hidle : s.rxState = .idle)
    (hin : s.inbox = rxInputs f ++ rest) :
    ∃ m : Memory, m.Holds f 2 ∧ steps 2 s = .next (s.collecting f rest 2 m) := by
  obtain ⟨l, hl⟩ := frameComplete_eq_cons hf
  obtain ⟨-, -, ⟨hmin, hmax⟩, -⟩ := hf
  have hsync : step s = .next (s.afterSync (rxInputs (frameLen f :: l) ++ rest)) :=
    step_sync hidle (hl ▸ hin)
  have hlen : step (s.afterSync (rxInputs (frameLen f :: l) ++ rest))
      = .next (s.collecting f rest 2 ((s.rxBuf.write 0 Config.sync).write 1 (frameLen f))) := by
    rw [step_rxInputs_cons rfl, rxByteWith_accept _ _ _ rfl hmin hmax, State.collecting,
      show f.drop 2 = l by rw [hl]; rfl]
    rfl
  refine ⟨_, ?_, (steps_succ_last ((steps_succ hsync).trans rfl)).trans hlen⟩
  exact ((s.rxBuf.holds_zero f).write (by rw [hl]; rfl)).write (by rw [hl]; rfl)

/-- From IDLE, any part of a complete frame that has the header and is not all of it is collected (R159). -/
theorem steps_collecting {s : State} (hf : FrameComplete f) (hidle : s.rxState = .idle)
    (hin : s.inbox = rxInputs f ++ rest) {k : Nat} (h2 : 2 ≤ k) (hk : k < f.length) :
    ∃ m : Memory, m.Holds f k ∧ steps k s = .next (s.collecting f rest k m) := by
  induction k, h2 using Nat.le_induction with
  | base => exact steps_header hf hidle hin
  | succ k _ ih =>
    have hlt : k < f.length := Nat.lt_of_succ_lt hk
    obtain ⟨m, hm, hrun⟩ := ih hlt
    exact ⟨_, hm.write (List.getElem?_eq_getElem hlt),
      (steps_succ_last hrun).trans (s.step_collecting_progress m hf hk)⟩

/-- From IDLE, a complete frame is reassembled in the scratch and dispatched, with the framer back in IDLE
(R159). -/
theorem steps_completeFrame {s : State} (hf : FrameComplete f) (hidle : s.rxState = .idle)
    (hin : s.inbox = rxInputs f ++ rest) :
    ∃ m : Memory, m.Holds f f.length ∧ steps f.length s
      = .next (dispatch Config.hw f
          { s with
            inbox := rest
            rxState := .idle
            rxLen := frameLen f
            rxIdx := 0
            rxBuf := m }) := by
  have hthree : 2 < f.length := by
    obtain ⟨-, -, ⟨hmin, -⟩, htold⟩ := hf
    change 2 ≤ (frameLen f).toNat at hmin
    omega
  obtain ⟨k, hk⟩ : ∃ k, f.length = k + 1 := ⟨f.length - 1, by omega⟩
  have hlt : k < f.length := by omega
  obtain ⟨m, hm, hrun⟩ := steps_collecting hf hidle hin (k := k) (by omega) hlt
  rw [hk]
  exact ⟨_, hm.write (List.getElem?_eq_getElem hlt),
    (steps_succ_last hrun).trans (s.step_collecting_last hf hm hk.symm)⟩

end

end Sys2Proof.Machine
end

section
/-! O30 and O39. Encoded frames fed back to the framer (spec 41_frame_codec.md R115, R123; 43_framer.md R154, R159,
R174). -/

namespace Sys2Proof.Machine

/-! ### The longest command frame (R123) -/

theorem frameLen_longestCommandFrame (fn : Byte) (pay : Vector Byte Config.cmdMaxPayload) :
    (frameLen (cmdFrame Config.hw fn (payloadOperand 57 pay))).toNat = 63 := by
  have hbody : (cmdBody Config.hw fn (payloadOperand 57 pay)).tail.length = 61 := by
    rw [length_cmdBody_tail, length_payloadOperand pay le_rfl]
    rfl
  rw [cmdFrame_eq_envelope, frameLen_envelope_toNat _ (by omega), hbody]

/-- From IDLE, a sync byte and a length byte out of range are answered by PROGRESS and DROP_LEN (R152, R154). -/
theorem responses_badLength {s : State} {b : Byte} {l : List Byte} {rest : List Input}
    (hidle : s.rxState = .idle) (hin : s.inbox = rxInputs (Config.sync :: b :: l) ++ rest)
    (hb : b.toNat > Config.hw.rxMaxLen ∨ b.toNat < Config.hw.rxMinLen) :
    responses 2 s
      = [some ⟨.ok, [], none, .progress, none⟩, some ⟨.ok, [], none, .dropLen, none⟩] := by
  have hone : steps 1 s = .next (s.afterSync (rxInputs (b :: l) ++ rest)) :=
    steps_succ (step_sync hidle hin)
  have htwo : steps 2 s
      = .next (({ s.afterSync (rxInputs (b :: l) ++ rest) with
          inbox := rxInputs l ++ rest }).toIdle.rxRespond .dropLen) := by
    rw [steps_succ_last hone, step_rxInputs_cons rfl, rxByteWith_dropLen _ _ _ rfl hb]
  simp only [responses, List.range_succ, List.range_zero, List.nil_append, List.map_append,
    List.map_cons, List.map_nil, hone, htwo]
  rfl

/-- Settles O30: the length byte counts 63 bytes, one more than RX_MAX_LEN. -/
theorem longestCommandFrameIsDroppedByTheFramer :
    Obligations.LongestCommandFrameIsDroppedByTheFramer := by
  intro fn pay s rest hidle hin
  have hlen := frameLen_longestCommandFrame fn pay
  have hlong : (frameLen (cmdFrame Config.hw fn (payloadOperand 57 pay))).toNat > 62 := by omega
  exact ⟨hlong, responses_badLength hidle hin (.inl hlong)⟩

/-! ### The RC-channels frame (R115, R174) -/

section
variable {w : Nat} (ch : Vector (BitVec w) 16)

theorem frameType_rcFrame : frameType (rcFrame ch) = 0x16 := rfl

theorem frameLen_rcFrame : frameLen (rcFrame ch) = 24 := rfl

theorem frameComplete_rcFrame : FrameComplete (rcFrame ch) := by
  rw [rcFrame_eq_envelope]
  exact frameComplete_envelope _ (by rw [Vector.length_toList]; decide)

theorem frameCrcOk_rcFrame : frameCrcOk (rcFrame ch) = true := by
  rw [rcFrame_eq_envelope]
  exact frameCrcOk_envelope _ (by rw [Vector.length_toList]; decide)

/-- A frame of type 0x16 is an unknown frame (R74, R174). -/
theorem dispatch_of_rcChannels {p : Params} {f : List Byte} {s : State}
    (h : FrameType.ofByte (frameType f) = .rcChannels) :
    dispatch p f s = handleFrame p f (unknownEvent f) s := by
  simp only [dispatch, h]

/-- An encoded RC-channels frame passes the checksum check, is an unknown frame, and leaves link_ok (R161,
R174). -/
theorem dispatch_rcFrame (p : Params) (s : State) :
    dispatch p (rcFrame ch) s
      = s.respond ⟨.ok, [], none, .dispatch,
          some ⟨.unknown, 22, 24, 0, 0, 0, 0x16, 24, true, rcFrame ch⟩⟩ := by
  have hcrc : crcDrops p (rcFrame ch) = false := by simp [crcDrops, frameCrcOk_rcFrame]
  rw [dispatch_of_rcChannels rfl, handleFrame_eq, hcrc, unknownEvent, frameEvent, frameCrcOk_rcFrame]
  rfl

end

/-- Settles O39. -/
theorem encodedRcFrameLoopsBack : Obligations.EncodedRcFrameLoopsBack := by
  intro ch s rest hidle hin
  have hlen : (rcFrame ch).length = 26 := by
    rw [rcFrame_eq_envelope, envelope_length, Vector.length_toList]
  obtain ⟨m, -, hrun⟩ := steps_completeFrame (frameComplete_rcFrame ch) hidle hin
  rw [hlen, dispatch_rcFrame] at hrun
  exact ⟨_, hrun, rfl, rfl, rfl, rfl, rfl, rfl⟩

end Sys2Proof.Machine
end

section
/-! O48. The safety gate: which flags open it, and what it lets through (spec 42_safety_gate.md R140, R142). -/

namespace Sys2Proof.Machine

section
variable {req : Throttle} {armed link ovr : Bool}

/-- An open gate passes the word as it is, with no clamping or conversion (R146). -/
theorem gate_of_open (h : armed = true ∧ (link = true ∨ ovr = true)) :
    gate req armed link ovr = req :=
  if_pos (by simpa using h)

/-- A closed gate puts out the all-zero word, not an error (R145). -/
theorem gate_of_closed (h : ¬ (armed = true ∧ (link = true ∨ ovr = true))) :
    gate req armed link ovr = 0 :=
  if_neg (by simpa using h)

end

/-- Settles O48: the output port is the gate of the state's own ports and link flag (R142). -/
theorem gateOutIsTheGateOfThePortsAndTheLink :
    Obligations.GateOutIsTheGateOfThePortsAndTheLink :=
  fun _ => ⟨gate_of_open, gate_of_closed⟩

end Sys2Proof.Machine
end

section
/-! SUPPORT, O40 to O44 and O45 to O47. What a complete frame is answered with, by its checksum, its type and its
payload (spec 43_framer.md R160 to R175). -/

namespace Sys2Proof.Machine

/-! ### The checksum check (R161) -/

section
variable (p : Params) (f : List Byte)

theorem crcDrops_eq_true_iff :
    crcDrops p f = true ↔ p.rxCrcCheck = true
      ∧ crc8 (slice f 2 (byteAt f 1).toNat) ≠ byteAt f ((byteAt f 1).toNat + 1) := by
  simp [crcDrops, frameCrcOk, frameCovered, frameCrc, frameLen]

theorem crcDrops_eq_false_iff :
    crcDrops p f = false ↔ p.rxCrcCheck = false
      ∨ crc8 (slice f 2 (byteAt f 1).toNat) = byteAt f ((byteAt f 1).toNat + 1) := by
  rw [← Bool.not_eq_true, crcDrops_eq_true_iff, not_and_or, not_not, Bool.not_eq_true]

end

/-! ### The types that have a decoder (R74) -/

theorem ofByte_eq_linkStatistics_iff :
    ∀ b : Byte, FrameType.ofByte b = .linkStatistics ↔ b = 0x14 := by decide

theorem ofByte_eq_batterySensor_iff :
    ∀ b : Byte, FrameType.ofByte b = .batterySensor ↔ b = 0x08 := by decide

theorem ofByte_eq_attitude_iff :
    ∀ b : Byte, FrameType.ofByte b = .attitude ↔ b = 0x1E := by decide

theorem ofByte_eq_flightMode_iff :
    ∀ b : Byte, FrameType.ofByte b = .flightMode ↔ b = 0x21 := by decide

/-! ### The event of a dispatched frame (R162, R170 to R175) -/

section
variable {p : Params} {f : List Byte}

theorem eventOf_linkStats {v : LinkStats} (ht : frameType f = 0x14)
    (hv : p.decLs (framePayload f) = some v) : eventOf p f = linkStatsEvent f v := by
  simp only [eventOf, (ofByte_eq_linkStatistics_iff _).mpr ht, hv]

theorem eventOf_battery {v : Battery} (ht : frameType f = 0x08)
    (hv : p.decBat (framePayload f) = some v) :
    eventOf p f = frameEvent f .battery v.voltageMv v.currentMa v.capacityMah 0 0 := by
  simp only [eventOf, (ofByte_eq_batterySensor_iff _).mpr ht, batteryEvent, hv]

theorem eventOf_attitude {v : Attitude} (ht : frameType f = 0x1E)
    (hv : p.decAtt (framePayload f) = some v) :
    eventOf p f = frameEvent f .attitude v.pitch v.roll v.yaw 0 0 := by
  simp only [eventOf, (ofByte_eq_attitude_iff _).mpr ht, attitudeEvent, hv]

theorem eventOf_flightMode {v : Value} (ht : frameType f = 0x21)
    (hv : p.decFm (framePayload f) = some v) :
    eventOf p f = frameEvent f .flightMode v 0 0 0 0 := by
  simp only [eventOf, (ofByte_eq_flightMode_iff _).mpr ht, flightModeEvent, hv]

/-- A frame whose type has no decoder, or whose decoder gives no result, is unknown (R174). -/
theorem eventOf_unknown (hls : frameType f = 0x14 → p.decLs (framePayload f) = none)
    (hbat : frameType f = 0x08 → p.decBat (framePayload f) = none)
    (hatt : frameType f = 0x1E → p.decAtt (framePayload f) = none)
    (hfm : frameType f = 0x21 → p.decFm (framePayload f) = none) :
    eventOf p f = unknownEvent f := by
  cases ht : FrameType.ofByte (frameType f) with
  | rcChannels | mspCommand | unknown => simp only [eventOf, ht]
  | linkStatistics => simp only [eventOf, ht, hls ((ofByte_eq_linkStatistics_iff _).mp ht)]
  | batterySensor =>
    simp only [eventOf, ht, batteryEvent, hbat ((ofByte_eq_batterySensor_iff _).mp ht)]
  | attitude => simp only [eventOf, ht, attitudeEvent, hatt ((ofByte_eq_attitude_iff _).mp ht)]
  | flightMode =>
    simp only [eventOf, ht, flightModeEvent, hfm ((ofByte_eq_flightMode_iff _).mp ht)]

/-- A property holds of a frame's event if it holds of the unknown-frame event and of each sample that the
frame's type and payload can give. -/
theorem eventOf_elim {P : Event → Prop} (unknown : P (unknownEvent f))
    (linkStats : ∀ v, frameType f = 0x14 → P (linkStatsEvent f v))
    (battery : ∀ v1 v2 v3, frameType f = 0x08 → P (frameEvent f .battery v1 v2 v3 0 0))
    (attitude : ∀ v1 v2 v3, frameType f = 0x1E → P (frameEvent f .attitude v1 v2 v3 0 0))
    (flightMode : ∀ v, frameType f = 0x21 → P (frameEvent f .flightMode v 0 0 0 0)) :
    P (eventOf p f) := by
  cases ht : FrameType.ofByte (frameType f) with
  | rcChannels | mspCommand | unknown => simpa only [eventOf, ht]
  | linkStatistics =>
    cases hv : p.decLs (framePayload f) with
    | none => simpa only [eventOf, ht, hv]
    | some v =>
      have hbyte := (ofByte_eq_linkStatistics_iff _).mp ht
      exact eventOf_linkStats hbyte hv ▸ linkStats v hbyte
  | batterySensor =>
    cases hv : p.decBat (framePayload f) with
    | none => simpa only [eventOf, ht, batteryEvent, hv]
    | some v =>
      have hbyte := (ofByte_eq_batterySensor_iff _).mp ht
      exact eventOf_battery hbyte hv ▸ battery _ _ _ hbyte
  | attitude =>
    cases hv : p.decAtt (framePayload f) with
    | none => simpa only [eventOf, ht, attitudeEvent, hv]
    | some v =>
      have hbyte := (ofByte_eq_attitude_iff _).mp ht
      exact eventOf_attitude hbyte hv ▸ attitude _ _ _ hbyte
  | flightMode =>
    cases hv : p.decFm (framePayload f) with
    | none => simpa only [eventOf, ht, flightModeEvent, hv]
    | some v =>
      have hbyte := (ofByte_eq_flightMode_iff _).mp ht
      exact eventOf_flightMode hbyte hv ▸ flightMode v hbyte

/-- What every event carries of its frame (R175). -/
theorem eventOf_carries (p : Params) (f : List Byte) :
    (eventOf p f).type = frameType f ∧ (eventOf p f).len = frameLen f ∧ (eventOf p f).frame = f
      ∧ (eventOf p f).crcOk = frameCrcOk f := by
  apply eventOf_elim (P := fun e =>
    e.type = frameType f ∧ e.len = frameLen f ∧ e.frame = f ∧ e.crcOk = frameCrcOk f)
  all_goals intros; exact ⟨rfl, rfl, rfl, rfl⟩

/-- The kind of a sample tells the frame's type (R170 to R173). -/
theorem eventOf_kind (p : Params) (f : List Byte) :
    ((eventOf p f).kind = .linkStats → frameType f = 0x14)
      ∧ ((eventOf p f).kind = .battery → frameType f = 0x08)
      ∧ ((eventOf p f).kind = .attitude → frameType f = 0x1E)
      ∧ ((eventOf p f).kind = .flightMode → frameType f = 0x21) := by
  apply eventOf_elim (P := fun e =>
    (e.kind = .linkStats → frameType f = 0x14) ∧ (e.kind = .battery → frameType f = 0x08)
      ∧ (e.kind = .attitude → frameType f = 0x1E) ∧ (e.kind = .flightMode → frameType f = 0x21))
  case unknown => exact ⟨nofun, nofun, nofun, nofun⟩
  case linkStats => intro _ ht; exact ⟨fun _ => ht, nofun, nofun, nofun⟩
  case battery => intro _ _ _ ht; exact ⟨nofun, fun _ => ht, nofun, nofun⟩
  case attitude => intro _ _ _ ht; exact ⟨nofun, nofun, fun _ => ht, nofun⟩
  case flightMode => intro _ ht; exact ⟨nofun, nofun, nofun, fun _ => ht⟩

end

/-! ### The handling of a complete frame, in each of its cases (R161, R170) -/

section
variable {p : Params} {f : List Byte}

/-- A discarded frame is only answered, by DROP_CRC (R161). -/
theorem dispatch_of_drops (s : State) (h : crcDrops p f = true) :
    dispatch p f s = s.respond ⟨.ok, [], none, .dropCrc, none⟩ := by
  rw [dispatch_eq, linkAfter, dispatchResponse, if_neg (by simp [h]), if_pos h]
  rfl

/-- A frame that is not discarded is answered by DISPATCH with its event (R162). -/
theorem dispatch_response_of_not_drops (s : State) (h : crcDrops p f = false) :
    (dispatch p f s).response = some ⟨.ok, [], none, .dispatch, some (eventOf p f)⟩ := by
  rw [dispatch_eq, dispatchResponse, if_neg (by simp [h])]

theorem dispatch_linkStatistics (s : State) (ht : frameType f = 0x14) :
    dispatch p f s = handleLinkStats p f s := by
  simp only [dispatch, (ofByte_eq_linkStatistics_iff _).mpr ht]

theorem handleLinkStats_drops (s : State) (h : crcDrops p f = true) :
    handleLinkStats p f s = s.respond ⟨.ok, [], none, .dropCrc, none⟩ := by
  simp [handleLinkStats, h]

theorem handleLinkStats_undecoded (s : State) (h : crcDrops p f = false)
    (hv : p.decLs (framePayload f) = none) :
    handleLinkStats p f s = s.respond ⟨.ok, [], none, .dispatch, some (unknownEvent f)⟩ := by
  simp [handleLinkStats, h, hv]

theorem handleLinkStats_decoded {v : LinkStats} (s : State) (h : crcDrops p f = false)
    (hv : p.decLs (framePayload f) = some v) :
    handleLinkStats p f s = { s with linkOk := linkFlag v }.respond
      ⟨.ok, [], none, .dispatch, some (linkStatsEvent f v)⟩ := by
  simp [handleLinkStats, h, hv]

theorem linkFlag_eq_decide (v : LinkStats) :
    linkFlag v
      = decide (v.lq.toInt > 50 ∧ (v.rssi1.toInt > -100 ∨ v.rssi2.toInt > -100)) := by
  rw [Bool.eq_iff_iff, linkFlag_eq_true_iff, decide_eq_true_iff]

end

/-- A frame of any type but LINK_STATISTICS with the checksum check written out (R160, R161). -/
theorem handleFrame_eq_of_checksum (p : Params) (f : List Byte) (e : Event) (s : State) :
    handleFrame p f e s
      = s.respond (if p.rxCrcCheck = true
            ∧ crc8 (slice f 2 (byteAt f 1).toNat) ≠ byteAt f ((byteAt f 1).toNat + 1) then
          ⟨.ok, [], none, .dropCrc, none⟩
        else ⟨.ok, [], none, .dispatch, some e⟩) :=
  (handleFrame_eq p f e s).trans (congrArg s.respond (if_congr (crcDrops_eq_true_iff p f) rfl rfl))

/-! ### The obligations on dispatch, in every configuration -/

/-- Settles O45. -/
theorem checksumCheckGovernsDispatch : Obligations.ChecksumCheckGovernsDispatch := by
  intro p f s
  refine ⟨fun hcheck hwrong => ?_, fun hcheck => ?_⟩
  · exact dispatch_of_drops s ((crcDrops_eq_true_iff p f).mpr ⟨hcheck, hwrong⟩)
  · have hkept := (crcDrops_eq_false_iff p f).mpr (.inl hcheck)
    obtain ⟨-, -, -, hcrc⟩ := eventOf_carries p f
    exact ⟨_, dispatch_response_of_not_drops s hkept, hcrc⟩

/-- Settles O46: the event is `eventOf`, which each type with a result, and the lack of one, determines. -/
theorem dispatchedFrameGivesOneEvent : Obligations.DispatchedFrameGivesOneEvent := by
  rintro p f _ s hkept rfl
  obtain ⟨htype, hlen, hframe, hcrc⟩ := eventOf_carries p f
  obtain ⟨hls, hbat, hatt, hfm⟩ := eventOf_kind p f
  refine ⟨eventOf p f, dispatch_response_of_not_drops s ((crcDrops_eq_false_iff p f).mpr hkept),
    htype, hlen, hframe, hcrc, fun h => htype.trans (hls h), fun h => htype.trans (hbat h),
    fun h => htype.trans (hatt h), fun h => htype.trans (hfm h), fun v ht hv => ?_,
    fun v ht hv => ?_, fun v ht hv => ?_, fun v ht hv => ?_, fun hls hbat hatt hfm => ?_⟩
  · rw [eventOf_linkStats ht hv]; exact ⟨rfl, rfl, rfl, rfl, rfl, rfl⟩
  · rw [eventOf_battery ht hv]; exact ⟨rfl, rfl, rfl, rfl, rfl, rfl⟩
  · rw [eventOf_attitude ht hv]; exact ⟨rfl, rfl, rfl, rfl, rfl, rfl⟩
  · rw [eventOf_flightMode ht hv]; exact ⟨rfl, rfl, rfl, rfl, rfl, rfl⟩
  · rw [eventOf_unknown hls hbat hatt hfm]; exact ⟨rfl, rfl, rfl, rfl, rfl, rfl⟩

/-- Settles O47. -/
theorem linkFlagFollowsDecodedStatistics : Obligations.LinkFlagFollowsDecodedStatistics := by
  intro p f s hkept ht
  have hkept := (crcDrops_eq_false_iff p f).mpr hkept
  rw [dispatch_linkStatistics s ht]
  refine ⟨fun v hv => ?_, fun hv => ?_⟩
  · rw [handleLinkStats_decoded s hkept hv]
    exact ⟨linkFlag_eq_true_iff v, _, rfl, rfl, rfl, rfl, rfl, rfl, rfl⟩
  · rw [handleLinkStats_undecoded s hkept hv]
    exact ⟨rfl, rfl⟩

/-! ### The obligations on the frame rows -/

/-- Settles O40: the three rows are one handling with the unknown-frame event (R174). -/
theorem unknownFramesAreNotified : Obligations.UnknownFramesAreNotified := fun f s =>
  have hframe := congrArg Host.Outcome.next
    (handleFrame_eq_of_checksum Config.hw f (unknownEvent f) s)
  ⟨_, rfl, hframe, hframe, hframe⟩

/-- Settles O41: the frame is discarded, undecodable or decoded. -/
theorem linkStatisticsFrameWritesTheLinkFlag : Obligations.LinkStatisticsFrameWritesTheLinkFlag := by
  intro f s
  rw [exec_frameLinkStatistics]
  refine congrArg _ ?_
  split
  · next hdrop => exact handleLinkStats_drops s ((crcDrops_eq_true_iff _ f).mpr hdrop)
  · next hkept =>
    have hkept := Bool.eq_false_iff.mpr (mt (crcDrops_eq_true_iff Config.hw f).mp hkept)
    split
    · next hv => exact handleLinkStats_undecoded s hkept hv
    · next v hv => rw [handleLinkStats_decoded s hkept hv, linkFlag_eq_decide]; rfl

/-- Settles O42: `batteryEvent` is the sample or the unknown-frame event, whichever the decoder selects. -/
theorem batteryFrameIsNotified : Obligations.BatteryFrameIsNotified := fun f s =>
  ⟨_, rfl, congrArg Host.Outcome.next
    (handleFrame_eq_of_checksum Config.hw f (batteryEvent Config.hw f) s)⟩

/-- Settles O43: `attitudeEvent` is the sample or the unknown-frame event, whichever the decoder selects. -/
theorem attitudeFrameIsNotified : Obligations.AttitudeFrameIsNotified := fun f s =>
  ⟨_, rfl, congrArg Host.Outcome.next
    (handleFrame_eq_of_checksum Config.hw f (attitudeEvent Config.hw f) s)⟩

/-- Settles O44: `flightModeEvent` is the sample or the unknown-frame event, whichever the decoder selects. -/
theorem flightModeFrameIsNotified : Obligations.FlightModeFrameIsNotified := fun f s =>
  ⟨_, rfl, congrArg Host.Outcome.next
    (handleFrame_eq_of_checksum Config.hw f (flightModeEvent Config.hw f) s)⟩

end Sys2Proof.Machine
end

section
/-! O31 to O35, O37 and O38. One received byte in each state of the framer, and the bytes of a complete frame (spec
43_framer.md R150 to R159, R176). -/

namespace Sys2Proof.Machine

/-! ### One byte, by the state of the framer (R152 to R157) -/

/-- Settles O31: a sync byte is stored at index 0, any other byte only answered. -/
theorem rxByteInIdle : Obligations.RxByteInIdle := by
  intro b s hs
  refine ⟨_, exec_rxByte b s, fun hb => ?_, fun hb => ?_⟩
  · have hstores : s.rxStores b := (State.rxStores_idle b hs).mpr hb
    have hindex := s.storeIndex_idle hs
    refine ⟨?_, ?_, fun a ha => rxByteWith_bufRead_of_ne (hindex ▸ ha)⟩
    · obtain rfl : b = Config.sync := hb
      rw [rxByteWith_sync _ s hs]; rfl
    · rw [rxByteWith_bufRead_of_rxStores hstores, hindex, if_pos rfl, hb]
  · exact rxByteWith_hunt _ b s hs hb

/-- Settles O32. -/
theorem rxByteAcceptsALength : Obligations.RxByteAcceptsALength := by
  intro b s hs hmin hmax
  have hstores : s.rxStores b := (State.rxStores_len b hs).mpr ⟨hmin, hmax⟩
  have hindex := s.storeIndex_len hs
  refine ⟨_, exec_rxByte b s, ?_, ?_, fun a ha => rxByteWith_bufRead_of_ne (hindex ▸ ha)⟩
  · rw [rxByteWith_accept _ b s hs hmin hmax]; rfl
  · rw [rxByteWith_bufRead_of_rxStores hstores, hindex, if_pos rfl]

/-- Settles O33. -/
theorem rxByteDropsALengthOutOfRange : Obligations.RxByteDropsALengthOutOfRange :=
  fun b s hs hb => congrArg Host.Outcome.next (rxByteWith_dropLen Config.hw b s hs hb)

/-- Settles O34: the scratch is the old one with the byte written at rx_idx. -/
theorem rxByteInBody : Obligations.RxByteInBody := by
  intro b s hs hcap
  have hovf : ¬ s.overflows Config.hw := not_lt.mpr hcap
  refine ⟨s.rxBuf.write s.rxIdx.toNat b, Memory.find_write_same _ _ b,
    fun a ha => Memory.find_write_ne _ b ha, fun hcomp => ?_, fun hcomp => ?_⟩
  · rw [exec_rxByte, rxByteWith_complete _ b s hs hovf hcomp, exec_instrOfFrame]
    rfl
  · have hidx : BitVec.ofNat 7 (s.rxIdx.toNat + 1) = s.rxIdx + 1 := by
      rw [BitVec.ofNat_add, BitVec.ofNat_toNat, BitVec.setWidth_eq]
      rfl
    rw [exec_rxByte, rxByteWith_progress _ b s hs hovf hcomp, hidx]
    rfl

/-- With this hardware no state of the invariant is at the scratch's capacity (R32, R157). -/
theorem State.Inv.not_overflows {s : State} (h : s.Inv) (hs : s.rxState = .body) :
    ¬ s.overflows Config.hw := by
  obtain ⟨hf, -⟩ := h
  obtain ⟨-, hmax, -, -, -, hhigh, -, -⟩ := (State.framerInv_body hs).mp hf
  change s.rxLen.toNat ≤ 62 at hmax
  change ¬ s.rxIdx.toNat + 1 > 64
  omega

/-! ### The response of RX_BYTE (R158, R176) -/

/-- The state answers a received byte: OK with the diagnostic `x`, an event exactly on DISPATCH, and in IDLE
with no partial frame after a dispatch or a drop (R158, R162, R176). -/
structure State.AnswersByte (t : State) (x : RxStatus) (ev : Option Event) : Prop where
  response : t.response = some ⟨.ok, [], none, x, ev⟩
  event : ev ≠ none ↔ x = .dispatch
  idle : x ∈ [.dispatch, .dropLen, .dropOvf, .dropCrc] → t.rxState = .idle ∧ t.rxIdx = 0

/-- A byte that completes no frame and drops none is answered without an event, in any state. -/
theorem State.answersByte_stay (u : State) {x : RxStatus}
    (hx : x ∉ [.dispatch, .dropLen, .dropOvf, .dropCrc]) :
    (u.rxRespond x).AnswersByte x none :=
  ⟨rfl, ⟨nofun, fun h => absurd (h ▸ List.mem_cons_self) hx⟩, fun h => absurd h hx⟩

/-- A drop is silent and leaves the framer in IDLE. -/
theorem State.answersByte_drop (s : State) {x : RxStatus} (hx : x ≠ .dispatch) :
    (s.toIdle.rxRespond x).AnswersByte x none :=
  ⟨rfl, ⟨nofun, fun h => absurd h hx⟩, fun _ => ⟨rfl, rfl⟩⟩

/-- The dispatch of a frame answers DROP_CRC, or DISPATCH with an event. -/
theorem dispatch_answersByte (p : Params) (f : List Byte) (s : State) :
    ∃ x ev, (dispatch p f s.toIdle).AnswersByte x ev ∧ x ≠ .dropOvf := by
  rw [dispatch_eq]
  cases h : crcDrops p f with
  | true =>
    exact ⟨.dropCrc, none,
      ⟨by simp [dispatchResponse, h], ⟨nofun, nofun⟩, fun _ => ⟨rfl, rfl⟩⟩, nofun⟩
  | false =>
    exact ⟨.dispatch, some (eventOf p f),
      ⟨by simp [dispatchResponse, h], ⟨fun _ => rfl, fun _ => nofun⟩, fun _ => ⟨rfl, rfl⟩⟩, nofun⟩

/-- RX_BYTE answers its byte, and by DROP_OVF only past the scratch's capacity. -/
theorem rxByteWith_answersByte (p : Params) (b : Byte) (s : State) :
    ∃ x ev, (rxByteWith p b s).AnswersByte x ev
      ∧ (x = .dropOvf → s.rxState = .body ∧ s.overflows p) := by
  apply rxByteWith_elim (P := fun t =>
    ∃ x ev, t.AnswersByte x ev ∧ (x = .dropOvf → s.rxState = .body ∧ s.overflows p))
  case hunt => intros; exact ⟨_, _, State.answersByte_stay _ (by decide), nofun⟩
  case sync => intros; exact ⟨_, _, State.answersByte_stay _ (by decide), nofun⟩
  case dropLen => intros; exact ⟨_, _, s.answersByte_drop nofun, nofun⟩
  case accept => intros; exact ⟨_, _, State.answersByte_stay _ (by decide), nofun⟩
  case dropOvf => intro hs hovf; exact ⟨_, _, s.answersByte_drop nofun, fun _ => ⟨hs, hovf⟩⟩
  case complete =>
    intros
    obtain ⟨x, ev, hanswer, hne⟩ := dispatch_answersByte p (s.frameWith b) (s.bufWrite s.rxIdx.toNat b)
    exact ⟨x, ev, hanswer, fun h => absurd h hne⟩
  case progress => intros; exact ⟨_, _, State.answersByte_stay _ (by decide), nofun⟩

/-- Settles O35: DROP_OVF comes only from a BODY past the capacity, which the invariant shuts out. -/
theorem rxByteOverflow : Obligations.RxByteOverflow := by
  refine ⟨fun p b s hs hovf => ?_, fun b s hs hovf => ?_, fun b s t r hinv hexec hr => ?_⟩
  · exact rxByteWith_dropOvf p b s hs hovf
  · exact congrArg Host.Outcome.next (rxByteWith_dropOvf Config.hw b s hs hovf)
  · cases (exec_rxByte b s).symm.trans hexec
    obtain ⟨x, ev, ⟨hresponse, -, -⟩, hovf⟩ := rxByteWith_answersByte Config.hw b s
    cases hresponse.symm.trans hr
    intro hx
    obtain ⟨hs, hpast⟩ := hovf hx
    exact hinv.not_overflows hs hpast

/-- Settles O37. -/
theorem dropsAreSilentAndReturnToIdle : Obligations.DropsAreSilentAndReturnToIdle := by
  intro b s t r hexec hr
  cases (exec_rxByte b s).symm.trans hexec
  obtain ⟨x, ev, ⟨hresponse, hevent, hidle⟩, -⟩ := rxByteWith_answersByte Config.hw b s
  cases hresponse.symm.trans hr
  exact ⟨rfl, rfl, rfl, hevent, hidle⟩

/-! ### A complete frame, byte by byte (R159) -/

/-- Every part of a complete frame but the whole is answered by PROGRESS. -/
theorem response_of_partialFrame {s : State} {f : List Byte} {rest : List Input} {k : Nat}
    (hf : FrameComplete f) (hidle : s.rxState = .idle) (hin : s.inbox = rxInputs f ++ rest)
    (hk : k + 1 < f.length) :
    (after (steps (k + 1) s)).bind State.response = some ⟨.ok, [], none, .progress, none⟩ := by
  cases k with
  | zero =>
    obtain ⟨l, hl⟩ := frameComplete_eq_cons hf
    rw [steps_succ (step_sync (l := frameLen f :: l) hidle (hl ▸ hin))]
    rfl
  | succ k =>
    obtain ⟨m, -, hrun⟩ := steps_collecting hf hidle hin (Nat.le_add_left 2 k) hk
    rw [hrun]
    rfl

/-- Settles O38: every proper part of the frame is answered by PROGRESS, and the whole is dispatched. -/
theorem framerReassemblesAnyCompleteFrame : Obligations.FramerReassemblesAnyCompleteFrame := by
  intro s f rest hf hidle hin
  refine ⟨?_, ?_⟩
  · refine List.eq_replicate_iff.mpr ⟨by simp [responses], fun r hr => ?_⟩
    obtain ⟨k, hk, rfl⟩ := List.mem_map.mp hr
    have hlt : k < f.length - 1 := List.mem_range.mp hk
    exact response_of_partialFrame hf hidle hin (by omega)
  · obtain ⟨m, hm, hrun⟩ := steps_completeFrame hf hidle hin
    refine ⟨m, fun i hi => (hm i hi).trans (List.getElem?_eq_getElem hi), ?_⟩
    rw [hrun, exec_instrOfFrame]

end Sys2Proof.Machine
end

section
/-! O15 and O16. NOP and the reserved operation codes (spec 44_block_control.md R190, R191). -/

namespace Sys2Proof.Machine

/-- NOP only answers (R190). -/
theorem exec_nop (s : State) : exec .nop s = .next (s.respond Response.plain) := rfl

/-- A reserved operation only raises ERR_ILLEGAL, whichever code it has (R191). -/
theorem exec_reserved (op : BitVec 3) (s : State) :
    exec (.reserved op) s = .next (s.raise .errIllegal) := rfl

/-- Settles O15: OP is 0x0 whatever the other fields of the word, and the operation only answers. -/
theorem nopWritesNothing : Obligations.NopWritesNothing :=
  ⟨fun b n _ _ _ => decodeRequest_nop (requestWord_op 0x0 b n), exec_nop⟩

/-- Settles O16: OP is at least 0x8 whatever the other fields of the word, and the operation only raises. -/
theorem reservedCodesRaiseErrIllegal : Obligations.ReservedCodesRaiseErrIllegal :=
  ⟨fun k b n ch pk pay => decodeRequest_requestWord_reserved b n ch pk pay k, exec_reserved⟩

end Sys2Proof.Machine
end

section
/-! SUPPORT, O53 and O54. The status every instruction answers, and what an error leaves (spec 60_exceptions.md R201 to
R203). -/

namespace Sys2Proof

open Sys2Proof.Machine

/-! ### The status of an instruction (R201, R202) -/

/-- The status an instruction answers: it depends on the instruction alone, not on the state (R201, R202). -/
def Instr.status (i : Instr) : Status :=
  match i with
  | .encCmd _ n _ => if n.toNat > Config.hw.cmdMaxPayload then .errPrecond else .ok
  | .reserved _ => .errIllegal
  | _ => .ok

theorem Instr.status_encCmd (fn : Byte) (n : BitVec 6) (pay : Vector Byte Config.cmdMaxPayload) :
    (Instr.encCmd fn n pay).status = if 57 < n.toNat then .errPrecond else .ok := rfl

theorem Instr.status_eq_errPrecond_iff (i : Instr) :
    i.status = .errPrecond ↔ ∃ fn n pay, i = .encCmd fn n pay ∧ 57 < n.toNat := by
  refine ⟨fun h => ?_, ?_⟩
  · cases i with
    | encCmd fn n pay =>
      rw [Instr.status_encCmd] at h
      split at h
      · next hn => exact ⟨fn, n, pay, rfl, hn⟩
      · cases h
    | _ => cases h
  · rintro ⟨fn, n, pay, rfl, hn⟩
    exact if_pos hn

theorem Instr.status_eq_errIllegal_iff (i : Instr) :
    i.status = .errIllegal ↔ ∃ k, i = .reserved k := by
  refine ⟨fun h => ?_, ?_⟩
  · cases i with
    | reserved k => exact ⟨k, rfl⟩
    | encCmd fn n pay => rw [Instr.status_encCmd] at h; split at h <;> cases h
    | _ => cases h
  · rintro ⟨k, rfl⟩
    rfl

end Sys2Proof

namespace Sys2Proof.Machine

/-! ### What an instruction answers (R203) -/

/-- A frame of any type but LINK_STATISTICS is answered OK, dropped or not. -/
theorem handleFrame_status (p : Params) (f : List Byte) (e : Event) (s : State) :
    (handleFrame p f e s).response.map Response.status = some .ok := by
  rw [handleFrame_eq]
  split <;> rfl

/-- A LINK_STATISTICS frame is answered OK, dropped, decoded or neither. -/
theorem handleLinkStats_status (p : Params) (f : List Byte) (s : State) :
    (handleLinkStats p f s).response.map Response.status = some .ok := by
  cases hd : crcDrops p f with
  | true => rw [handleLinkStats_drops s hd]; rfl
  | false =>
    cases hv : p.decLs (framePayload f) with
    | none => rw [handleLinkStats_undecoded s hd hv]; rfl
    | some v => rw [handleLinkStats_decoded s hd hv]; rfl

/-- Every instruction answers, with its status. -/
theorem exec_answers_status {i : Instr} {s t : State} (h : exec i s = .next t) :
    t.response.map Response.status = some i.status := by
  cases i with
  | encCmd fn n pay =>
    by_cases hn : 57 < n.toNat
    · cases (encCmdRefusesALongPayload fn n pay s hn).symm.trans h
      rw [Instr.status_encCmd, if_pos hn]
      rfl
    · cases (exec_encCmd_of_le fn pay s (not_lt.mp hn)).symm.trans h
      rw [Instr.status_encCmd, if_neg hn]
      rfl
  | rxByte b =>
    cases (exec_rxByte b s).symm.trans h
    obtain ⟨_, _, ⟨hresponse, -, -⟩, -⟩ := rxByteWith_answersByte Config.hw b s
    rw [hresponse]
    rfl
  | frameLinkStatistics f =>
    cases (exec_frameLinkStatistics f s).symm.trans h
    exact handleLinkStats_status Config.hw f s
  | frameRcChannels f | frameMspCommand f | frameBatterySensor f | frameAttitude f
  | frameFlightMode f | frameUnknown f => cases h; exact handleFrame_status _ f _ s
  | nop | crcInit | crcByte b | pack ch | unpack pk | encRc ch | reserved op => cases h; rfl

theorem status_of_exec {i : Instr} {s t : State} {r : Response} (h : exec i s = .next t)
    (hr : t.response = some r) : r.status = i.status := by
  simpa [hr] using exec_answers_status h

/-- An instruction whose status is an error only raises it. -/
theorem exec_of_status_ne_ok {i : Instr} (s : State) (h : i.status ≠ .ok) :
    exec i s = .next (s.raise i.status) := by
  cases i with
  | reserved op => exact exec_reserved op s
  | encCmd fn n pay =>
    by_cases hn : 57 < n.toNat
    · rw [Instr.status_encCmd, if_pos hn]
      exact encCmdRefusesALongPayload fn n pay s hn
    · exact absurd (if_neg hn) h
  | _ => exact absurd rfl h

/-- Settles O53: the response's status is the instruction's, and an instruction with an error status only raises. -/
theorem errorsHaveNoEffect : Obligations.ErrorsHaveNoEffect := by
  intro i s t r hexec hr hne
  rw [status_of_exec hexec hr] at hne ⊢
  exact Host.Outcome.next.inj (hexec.symm.trans (exec_of_status_ne_ok s hne))

/-- Settles O54: the response's status is the instruction's. -/
theorem errorsAreRaisedOnlyWhereStated : Obligations.ErrorsAreRaisedOnlyWhereStated := by
  intro i s t r hexec hr
  rw [status_of_exec hexec hr]
  exact ⟨i.status_eq_errPrecond_iff, i.status_eq_errIllegal_iff⟩

end Sys2Proof.Machine
end

section
/-! O2, O4, O7, O8 and O49. Reset, the completion of every step, the legal configuration, and the gate on a run
that stays disarmed (spec 42_safety_gate.md R143; 70_reset_and_hazards.md R230, R231, R234, R246, R247). -/

namespace Sys2Proof.Machine

/-! ### Reset (R230, R231) -/

/-- Settles O2. -/
theorem resetTransitionSetsEveryField : Obligations.ResetTransitionSetsEveryField :=
  fun _ _ hin => ⟨_, step_reset hin, rfl, rfl, rfl, rfl, rfl, rfl, rfl, rfl⟩

/-- With the link down only armed with override opens the gate (R142). -/
theorem State.gateOut_of_linkDown {s : State} (h : s.linkOk = false) :
    s.gateOut
      = if s.ports.armedIn = true ∧ s.ports.overrideIn = true then s.ports.gateReqIn else 0 := by
  obtain ⟨hopen, hclosed⟩ := gateOutIsTheGateOfThePortsAndTheLink s
  split
  · next hpass =>
    obtain ⟨harmed, hoverride⟩ := hpass
    exact hopen ⟨harmed, .inr hoverride⟩
  · next hpass => exact hclosed (by simpa [h] using hpass)

/-- Settles O4: a reset takes the link down and leaves the ports. -/
theorem resetDiscardsThePartialFrameAndClosesTheGate :
    Obligations.ResetDiscardsThePartialFrameAndClosesTheGate := by
  intro s rest hin
  obtain ⟨t, hstep, -, hstate, -, hidx, hlink, hresponse, -, hports⟩ :=
    resetTransitionSetsEveryField s rest hin
  exact ⟨t, hstep, hstate, hidx, hresponse, hports ▸ State.gateOut_of_linkDown hlink⟩

/-! ### Completion (R247) -/

theorem step_completes (s : State) : ∃ t, step s = .next t := by
  cases hin : s.inbox with
  | nil => exact ⟨s, step_nil hin⟩
  | cons x rest =>
    cases x with
    | drive p => exact ⟨_, step_drive hin⟩
    | reset => exact ⟨_, step_reset hin⟩
    | request r =>
      obtain ⟨t, ht⟩ := exec_completes (decodeRequest r) { s with inbox := rest }
      exact ⟨t, (step_request hin).trans ht⟩

theorem response_ne_none_of_exec {i : Instr} {s t : State} (h : exec i s = .next t) :
    t.response ≠ none := by
  intro hnone
  have hstatus := exec_answers_status h
  rw [hnone] at hstatus
  cases hstatus

/-- Settles O7. -/
theorem everyStepCompletesAndEveryRequestIsAnswered :
    Obligations.EveryStepCompletesAndEveryRequestIsAnswered := by
  intro s
  obtain ⟨t, hstep⟩ := step_completes s
  exact ⟨t, hstep, fun _ _ hin => response_ne_none_of_exec ((step_request hin).symm.trans hstep)⟩

/-! ### The configuration (R4, R26, R234) -/

/-- Settles O8: the values of R4, and the 7-bit bound of the model's own (notes/assumptions/7). -/
theorem thisConfigurationIsLegal : Obligations.ThisConfigurationIsLegal where
  minLen := show 2 ≤ 2 by decide
  minMax := show 2 ≤ 62 by decide
  maxLen := show 62 ≤ 255 by decide
  bufCap := show 2 ≤ 64 by decide
  cmdCount := show 57 ≤ 63 by decide
  cmdLen := show 6 + 57 ≤ 255 by decide
  idxField := show 64 ≤ 127 by decide

/-! ### A run that stays disarmed (R143, R246) -/

/-- The ports are disarmed, and no input still to come arms them. -/
structure StaysDisarmed (p : Ports) (inputs : List Input) : Prop where
  now : p.armedIn = false
  later : ∀ q, Input.drive q ∈ inputs → q.armedIn = false

/-- An input that leaves the ports leaves them disarmed. -/
theorem StaysDisarmed.tail {p : Ports} {x : Input} {rest : List Input}
    (h : StaysDisarmed p (x :: rest)) : StaysDisarmed p rest :=
  ⟨h.now, fun q hq => h.later q (List.mem_cons_of_mem x hq)⟩

/-- An input that drives the ports leaves them disarmed, for it does not arm. -/
theorem StaysDisarmed.drive {p q : Ports} {rest : List Input}
    (h : StaysDisarmed p (.drive q :: rest)) : StaysDisarmed q rest :=
  ⟨h.later q List.mem_cons_self, h.tail.later⟩

/-- Every step stays disarmed: only a drive writes the ports, and a reset keeps them. -/
theorem step_staysDisarmed {s t : State} (h : StaysDisarmed s.ports s.inbox)
    (hstep : step s = .next t) : StaysDisarmed t.ports t.inbox := by
  apply step_elim hstep
  case nothing => intro _; exact h
  case drive => intro p rest hin; rw [hin] at h; exact h.drive
  case reset => intro rest hin; rw [hin] at h; exact h.tail
  case request =>
    intro r rest hin hexec
    obtain ⟨-, hports, hinbox⟩ := exec_sameSurroundings hexec
    rw [hin] at h
    rw [hports, hinbox]
    exact h.tail

theorem State.gateOut_of_disarmed {s : State} (h : s.ports.armedIn = false) : s.gateOut = 0 := by
  obtain ⟨-, hclosed⟩ := gateOutIsTheGateOfThePortsAndTheLink s
  exact hclosed fun ⟨harmed, _⟩ => Bool.false_ne_true (h.symm.trans harmed)

/-- Settles O49: the first step disarms, and every later one stays disarmed. -/
theorem disarmedGateStaysClosedOnEveryRun : Obligations.DisarmedGateStaysClosedOnEveryRun := by
  intro n s t p rest hin hp hrest hrun
  obtain ⟨u, hu, hlater⟩ := steps_succ_next hrun
  cases (step_drive hin).symm.trans hu
  have hend : StaysDisarmed t.ports t.inbox :=
    steps_keep (P := fun s => StaysDisarmed s.ports s.inbox)
      (fun _ _ => step_staysDisarmed) ⟨hp, hrest⟩ hlater
  exact State.gateOut_of_disarmed hend.now

end Sys2Proof.Machine
end
